-- ==== Sys2Proof/Word.lean ====
section
/-! DEFINITION. The value types of the packet protocol engine: bytes, byte strings and the three register widths
(spec/00_scope.md rule R9). -/

namespace Sys2Proof

/-- A byte, an unsigned 8-bit value (R9). -/
abbrev Byte := BitVec 8

/-- The 9-bit value that holds the sequence watermark (R25). -/
abbrev U9 := BitVec 9

/-- A 32-bit value: a clock reading `u32`, or an `i32` in two's complement (R9). -/
abbrev U32 := BitVec 32

/-- A byte string: a finite, possibly empty sequence of bytes, the first byte at index 0 (R9). -/
abbrev Text := List Byte

end Sys2Proof
end

