-- ==== Sys2Proof/Config.lean ====
section
/-! DEFINITION. What is fixed before `RESET`: the constants the source fixes, the configuration parameters
(spec/00_scope.md rule R6), the fixed texts of the protocol (spec/30_encoding.md rules R104 to R109), and the one
value the spec leaves open. -/

namespace Sys2Proof

/-- Start delimiter (R6). -/
def STX : Byte := 0x02

/-- End delimiter (R6). -/
def ETX : Byte := 0x03

/-- Field delimiter `|` (R6). -/
def FS : Byte := 0x7C

/-- Heartbeat interval in milliseconds (R6). -/
def tHb : U32 := 5000

/-- Arrival interval in milliseconds (R6). -/
def tArr : U32 := 10000

/-- Delay interval in milliseconds (R6). -/
def tDl : U32 := 30000

/-- The sentinel `NONE` of the sequence watermark, outside `0..255` (R25). -/
def seqNone : U9 := 0x100

/-- The parameters that the source leaves open (R6). They are fixed before `RESET` and no operation writes them; the
model takes them as data, so a claim about every state is a claim about every configuration (log entry 1). -/
structure Config where
  /-- `true`: frames carry a `SEQ` field (current revision); `false`: legacy (R2, R117). -/
  seqAware : Bool
  /-- `true`: a non-command type is answered `ERR UNKNOWN_TYPE` (R227). -/
  unknownTypeReply : Bool
  /-- `RX_CAP`, the most body bytes the assembler stores (R7). -/
  rxCap : Nat
  /-- `PAYLOAD_CAP`, the longest joined payload (R7). -/
  payloadCap : Nat
  /-- `TX_CAP`, the longest framed output (R7). -/
  txCap : Nat
  /-- `ROUTE_CAP`, the longest `route_id` (R7). -/
  routeCap : Nat
  /-- `NODE_ID`, also the constant `node_id` (R28). -/
  nodeId : Text
  /-- `STOP_ID`, the fixed stop of the arrival payload (R109). -/
  stopId : Text
  /-- `ROUTE_INIT` (R29). -/
  routeInit : Text
  /-- `ETA_INIT`, an `i32` in two's complement (R30). -/
  etaInit : U32
  /-- `TX_SEQ_INIT` (R26). -/
  txSeqInit : Byte
  deriving DecidableEq, Repr

/-- `CFG_REF`, the reference configuration (R6): `NODE01`, `STOP01`, `R1`, capacities 64, 64, 64, 15. -/
def cfgRef : Config where
  seqAware := true
  unknownTypeReply := false
  rxCap := 64
  payloadCap := 64
  txCap := 64
  routeCap := 15
  nodeId := [0x4E, 0x4F, 0x44, 0x45, 0x30, 0x31]
  stopId := [0x53, 0x54, 0x4F, 0x50, 0x30, 0x31]
  routeInit := [0x52, 0x31]
  etaInit := 0
  txSeqInit := 0

/-- DESIGN CHOICE, safe (log entry 7): the number a sequence-aware node would print for an operand `seq` of `none`. The spec
gives `seq` the value `none` only in the legacy form (R9), where no number is printed, so it states no number here and
nothing constrains this one. -/
opaque Config.missingSeq : Byte

/-! The fixed texts, as the ASCII codes of R92. -/

/-- `CMD`: message type, host to node (R104). -/
def txtCmd : Text := [0x43, 0x4D, 0x44]

/-- `ACK`: message type, positive reply (R104). -/
def txtAck : Text := [0x41, 0x43, 0x4B]

/-- `STATUS`: message type of the reply to `STATUS`, and the command text (R104, R106). -/
def txtStatus : Text := [0x53, 0x54, 0x41, 0x54, 0x55, 0x53]

/-- `ERR`: message type, error reply (R104). -/
def txtErr : Text := [0x45, 0x52, 0x52]

/-- `HB`: message type, heartbeat (R104). -/
def txtHb : Text := [0x48, 0x42]

/-- `ARR`: message type, arrival (R104). -/
def txtArr : Text := [0x41, 0x52, 0x52]

/-- `DL`: message type, delay (R104). -/
def txtDl : Text := [0x44, 0x4C]

/-- `PING`: command text (R106). -/
def txtPing : Text := [0x50, 0x49, 0x4E, 0x47]

/-- `SETROUTE=`: fixed part of a command text, 9 bytes (R106). -/
def txtSetroute : Text := [0x53, 0x45, 0x54, 0x52, 0x4F, 0x55, 0x54, 0x45, 0x3D]

/-- `SETETA=`: fixed part of a command text, 7 bytes (R106). -/
def txtSeteta : Text := [0x53, 0x45, 0x54, 0x45, 0x54, 0x41, 0x3D]

/-- `PONG`: reply data (R107). -/
def txtPong : Text := [0x50, 0x4F, 0x4E, 0x47]

/-- `ROUTE_SET`: reply data (R107). -/
def txtRouteSet : Text := [0x52, 0x4F, 0x55, 0x54, 0x45, 0x5F, 0x53, 0x45, 0x54]

/-- `ETA_SET`: reply data (R107). -/
def txtEtaSet : Text := [0x45, 0x54, 0x41, 0x5F, 0x53, 0x45, 0x54]

/-- `UNKNOWN_CMD`: error reason (R108). -/
def txtUnknownCmd : Text := [0x55, 0x4E, 0x4B, 0x4E, 0x4F, 0x57, 0x4E, 0x5F, 0x43, 0x4D, 0x44]

/-- `UNKNOWN_TYPE`: error reason (R108). -/
def txtUnknownType : Text := [0x55, 0x4E, 0x4B, 0x4E, 0x4F, 0x57, 0x4E, 0x5F, 0x54, 0x59, 0x50, 0x45]

/-- `FORMAT`: error reason (R108). -/
def txtFormat : Text := [0x46, 0x4F, 0x52, 0x4D, 0x41, 0x54]

/-- `CHK`: error reason (R108). -/
def txtChk : Text := [0x43, 0x48, 0x4B]

/-- `RX_OVERFLOW`: error reason (R108). -/
def txtRxOverflow : Text := [0x52, 0x58, 0x5F, 0x4F, 0x56, 0x45, 0x52, 0x46, 0x4C, 0x4F, 0x57]

/-- `TX_TOO_LONG`: error reason (R108). -/
def txtTxTooLong : Text := [0x54, 0x58, 0x5F, 0x54, 0x4F, 0x4F, 0x5F, 0x4C, 0x4F, 0x4E, 0x47]

/-- `FRM_TOO_LONG`: error reason (R108). -/
def txtFrmTooLong : Text := [0x46, 0x52, 0x4D, 0x5F, 0x54, 0x4F, 0x4F, 0x5F, 0x4C, 0x4F, 0x4E, 0x47]

/-- `OK`: heartbeat payload (R109). -/
def txtOk : Text := [0x4F, 0x4B]

/-- `+5MIN`: delay payload (R109). -/
def txtFiveMin : Text := [0x2B, 0x35, 0x4D, 0x49, 0x4E]

/-- `node=`: first key of the `STATUS` data (R107). -/
def txtNodeEq : Text := [0x6E, 0x6F, 0x64, 0x65, 0x3D]

/-- `route=`: first key of the arrival data (R109). -/
def txtRouteEq : Text := [0x72, 0x6F, 0x75, 0x74, 0x65, 0x3D]

/-- `,route=`: second key of the `STATUS` data (R107). -/
def txtCommaRouteEq : Text := [0x2C, 0x72, 0x6F, 0x75, 0x74, 0x65, 0x3D]

/-- `,stop=`: second key of the arrival data (R109). -/
def txtCommaStopEq : Text := [0x2C, 0x73, 0x74, 0x6F, 0x70, 0x3D]

/-- `,eta=`: last key of the `STATUS` and arrival data (R107, R109). -/
def txtCommaEtaEq : Text := [0x2C, 0x65, 0x74, 0x61, 0x3D]

end Sys2Proof
end

