-- ==== Sys2Proof/Machine/Operands.lean ====
section
/-! DEFINITION. Operand assembly: the string primitives (spec/00_scope.md rule R12), the numeric conversions
(spec/30_encoding.md rules R98 to R102) and the checksum function (spec/41_checksum.md rule R150). -/

namespace Sys2Proof.Machine

/-- `find_first(s, c, from)`: the least index `i >= from` with `s[i] = c` (R12). -/
def findFirst (s : Text) (c : Byte) (start : Nat) : Option Nat :=
  ((s.drop start).idxOf? c).map (start + ·)

/-- `find_last(s, c)`: the greatest index `i` with `s[i] = c` (R12). -/
def findLast (s : Text) (c : Byte) : Option Nat :=
  (s.reverse.idxOf? c).map (s.length - 1 - ·)

/-- `s[i..j)`: the bytes of indices `i` to `j - 1` (R9). -/
def slice (s : Text) (i j : Nat) : Text :=
  (s.take j).drop i

/-- `starts_with(s, p)` (R12). -/
def startsWith (s p : Text) : Bool :=
  p.isPrefixOf s

/-- `xor8(s)`: the bitwise XOR of every byte, from `0x00` (R150). -/
def xor8 (s : Text) : Byte :=
  s.foldl (· ^^^ ·) 0x00

/-- The table `H = "0123456789ABCDEF"` of R98. -/
def hexTable : Text :=
  [0x30, 0x31, 0x32, 0x33, 0x34, 0x35, 0x36, 0x37, 0x38, 0x39, 0x41, 0x42, 0x43, 0x44, 0x45, 0x46]

/-- `H[n]`. -/
def hexChar (n : BitVec 4) : Byte :=
  hexTable.getD n.toNat 0x30

/-- `hex2(v) = H[v[7:4]] ++ H[v[3:0]]` (R98). -/
def hex2 (v : Byte) : Text :=
  [hexChar (v.extractLsb' 4 4), hexChar (v.extractLsb' 0 4)]

/-- `hexdigit(b)`, `none` where R99 says `invalid`. -/
def hexdigit (b : Byte) : Option Byte :=
  if 0x30 ≤ b ∧ b ≤ 0x39 then some (b - 0x30)
  else if 0x41 ≤ b ∧ b ≤ 0x46 then some (b - 0x41 + 10)
  else if 0x61 ≤ b ∧ b ≤ 0x66 then some (b - 0x61 + 10)
  else none

/-- The loop of `hexval`; 8-bit arithmetic is arithmetic modulo 256 (R99). -/
def hexvalLoop (v : Byte) : Text → Byte
  | [] => v
  | b :: bs =>
    match hexdigit b with
    | none => 0
    | some d => hexvalLoop (16 * v + d) bs

/-- `hexval(f)` (R99). -/
def hexval (f : Text) : Byte :=
  hexvalLoop 0 f

/-- The decimal digit of `n mod 10` (R92, R100). -/
def decDigit (n : Nat) : Byte :=
  BitVec.ofNat 8 (0x30 + n % 10)

/-- The digits of a natural number, with enough fuel: each digit takes one. -/
def decNatFuel : Nat → Nat → Text
  | 0, n => [decDigit n]
  | fuel + 1, n => if n < 10 then [decDigit n] else decNatFuel fuel (n / 10) ++ [decDigit n]

/-- `dec(n)` for `n >= 0`: the fewest decimal digits, most significant first (R100). -/
def decNat (n : Nat) : Text :=
  decNatFuel n n

/-- `dec(v)` (R100). -/
def dec : Int → Text
  | .ofNat n => decNat n
  | .negSucc n => 0x2D :: decNat (n + 1)

/-- The test `0x30 <= b <= 0x39`. -/
def isDigit (b : Byte) : Bool :=
  0x30 ≤ b && b ≤ 0x39

/-- The loop of `parse_int`: the value of the digits up to the first other byte (R101). -/
def parseDigits (v : Nat) : Text → Nat
  | [] => v
  | b :: bs => if isDigit b then parseDigits (10 * v + (b.toNat - 0x30)) bs else v

/-- `parse_int(s)`: optional sign, then digits (R101). -/
def parseInt : Text → Int
  | [] => 0
  | b :: bs =>
    if b = 0x2D then -(parseDigits 0 bs : Int)
    else if b = 0x2B then parseDigits 0 bs
    else parseDigits 0 (b :: bs)

/-- `seq_of_text(s) = parse_int(s) mod 256` (R102). -/
def seqOfText (s : Text) : Byte :=
  BitVec.ofInt 8 (parseInt s)

/-- `wrap_i32(v)`: the `i32` in two's complement whose 32 bits are `v mod 2^32` (R9). -/
def wrapI32 (v : Int) : U32 :=
  BitVec.ofInt 32 v

/-- The text of an `i32` register, `dec` of its signed value (R100). -/
def decI32 (v : U32) : Text :=
  dec v.toInt

/-- The text of a `u8` sequence number (R95). -/
def decSeq (q : Byte) : Text :=
  dec (q.toNat : Int)

end Sys2Proof.Machine
end

