-- ==== Sys2Proof/Syntax.lean ====
section
/-! DEFINITION. The syntax of the machine: its three events (R10), the values its operations pass to one another (R31), and
one constructor of `Instr` for every row of spec/opcode_table.json (32 rows, spec/30_encoding.md rule R120). -/

namespace Sys2Proof

/-- The three events, the only steps in which the hardware changes state (R10). -/
inductive Event where
  /-- One byte arrived from the transport (R130). -/
  | rxbyte (b : Byte)
  /-- One iteration of the polling loop, with the clock's reading (R250). -/
  | poll (now : U32)
  /-- Reset (R320). -/
  | reset
  deriving DecidableEq, Repr

/-- A decoded message `(type, node, seq, data)`; `seq` is `none` exactly in the legacy form (R9). -/
structure Message where
  type : Text
  node : Text
  seq : Option Byte
  data : Text
  deriving DecidableEq, Repr

/-- The error kinds `DECODE` raises (R170). -/
inductive DecodeError where
  | format
  | checksumMismatch
  deriving DecidableEq, Repr

/-- The error kinds `ENCODE` raises (R176). -/
inductive EncodeError where
  | payloadTooLarge
  | frameTooLarge
  deriving DecidableEq, Repr

/-- The eight error kinds of R270. -/
inductive ErrorKind where
  | format
  | checksumMismatch
  | duplicateSequence
  | bufferOverflow
  | payloadTooLarge
  | frameTooLarge
  | unknownCommand
  | unknownType
  deriving DecidableEq, Repr

/-- The five operations among which an arriving byte chooses (R130). -/
inductive ByteOp where
  | stx
  | idle
  | etx
  | data
  | ovf
  deriving DecidableEq, Repr

/-- The rows of the command table (R106), with the operand of the two that have one. -/
inductive Command where
  | ping
  | status
  | setroute (value : Text)
  | seteta (value : Text)
  | unknown
  deriving DecidableEq, Repr

/-- The value an operation `return`s (R11). It is transient (R31). -/
inductive Ret where
  | none
  | byte (b : Byte)
  | bool (b : Bool)
  | text (t : Text)
  | message (m : Message)
  | decodeError (e : DecodeError)
  | encodeError (e : EncodeError)
  deriving DecidableEq, Repr

/-- The formats of opcode_table.json (R120). -/
inductive Format where
  | byte
  | frameIn
  | frameOut
  | event
  | func
  deriving DecidableEq, Repr

/-- One constructor for each row of spec/opcode_table.json, with the operands its rule and its template name. The
`FRAME_IN` rows carry the `<node>` of their template, which no rule examines (R232), and `CMD.UNKNOWN` and `TYPE.OTHER` the
texts that select them (log entry 12). -/
inductive Instr where
  /-- `RX.STX`: start of frame (R131). -/
  | rxStx
  /-- `RX.ETX`: end of frame (R132). -/
  | rxEtx
  /-- `RX.IDLE`: discard a byte outside a frame (R135). -/
  | rxIdle (b : Byte)
  /-- `RX.DATA`: store one body byte (R133). -/
  | rxData (b : Byte)
  /-- `RX.OVF`: receive overflow (R134). -/
  | rxOvf (b : Byte)
  /-- `RXBYTE`: the event of an arriving byte (R130). -/
  | rxbyte (b : Byte)
  /-- `FRAME.HANDLE`: everything that happens to a completed frame (R220). -/
  | frameHandle (body : Text)
  /-- `DECODE`: the deserializer (R170). -/
  | decode (body : Text)
  /-- `XOR8`: the checksum function (R150). -/
  | xor8 (s : Text)
  /-- `CHK.GEN`: the checksum generator (R152). -/
  | chkGen (payload : Text)
  /-- `CHK.VAL`: the checksum validator (R153). -/
  | chkVal (input field : Text)
  /-- `ENCODE`: the serializer (R176). -/
  | encode (type node : Text) (seq : Byte) (data : Text)
  /-- `SEND`: encode and transmit, with substitution on failure (R180). -/
  | send (type : Text) (seq : Byte) (data : Text)
  /-- `LIT.TX_TOO_LONG`: a literal error frame (R181). -/
  | litTxTooLong
  /-- `LIT.FRM_TOO_LONG`: a literal error frame (R181). -/
  | litFrmTooLong
  /-- `DEDUP.ACCEPT`: test and update the sequence watermark (R210). -/
  | dedupAccept (seq : Byte)
  /-- `CMD.PING` (R222). -/
  | cmdPing (node : Text) (seq : Option Byte)
  /-- `CMD.STATUS` (R223). -/
  | cmdStatus (node : Text) (seq : Option Byte)
  /-- `CMD.SETROUTE` (R224). -/
  | cmdSetroute (node : Text) (seq : Option Byte) (value : Text)
  /-- `CMD.SETETA` (R225). -/
  | cmdSeteta (node : Text) (seq : Option Byte) (value : Text)
  /-- `CMD.UNKNOWN` (R226). -/
  | cmdUnknown (node : Text) (seq : Option Byte) (data : Text)
  /-- `TYPE.OTHER` (R227). -/
  | typeOther (type node : Text) (seq : Option Byte) (data : Text)
  /-- `ERR.FORMAT` (R280). -/
  | errFormat
  /-- `ERR.CHK` (R281). -/
  | errChk
  /-- `ERR.RX_OVERFLOW` (R282). -/
  | errRxOverflow
  /-- `POLL`: the event of one polling iteration (R250). -/
  | poll (now : U32)
  /-- `TMR.DUE`: the timer comparator (R251). -/
  | tmrDue (now last interval : U32)
  /-- `TXSEQ.ALLOC`: allocate an outbound sequence number (R252). -/
  | txseqAlloc
  /-- `TLM.HB`: heartbeat (R253). -/
  | tlmHb
  /-- `TLM.ARR`: arrival (R254). -/
  | tlmArr
  /-- `TLM.DL`: delay (R255). -/
  | tlmDl
  /-- `RESET`: the reset event (R320). -/
  | reset
  deriving DecidableEq, Repr

end Sys2Proof
end

