-- ==== Sys2Proof/Machine/Flags.lean ====
section
/-! DEFINITION. The transient conditions of spec/10_state.md rule R36, each computed and consumed inside one event: byte
class, buffer full, checksum match, is command, accept, encode result, timer due. -/

namespace Sys2Proof.Machine

/-- Which operation an arriving byte selects, by its class (R91) and the state, tested in the order of R130. -/
def selectByte (receiving full : Bool) (b : Byte) : ByteOp :=
  if b = STX then .stx
  else if receiving = false then .idle
  else if b = ETX then .etx
  else if full = false then .data
  else .ovf

/-- Buffer full: no spare capacity, `rx_len < RX_CAP` fails (R130). -/
def bufferFull (cfg : Config) (rxLen : Nat) : Bool :=
  !decide (rxLen < cfg.rxCap)

/-- `CHK.VAL(input, field)`: `xor8(input) = hexval(field)` (R153). -/
def checksumMatches (input field : Text) : Bool :=
  xor8 input == hexval field

/-- Is command: `type = "CMD"`, byte for byte (R93). -/
def isCommand (type : Text) : Bool :=
  type == txtCmd

/-- The test of `DEDUP.ACCEPT`: `zext_9(seq) = last_host_seq` (R210). -/
def isDuplicate (last : U9) (seq : Byte) : Bool :=
  seq.setWidth 9 == last

/-- The first size check of `ENCODE` (R178). -/
def exceedsPayloadCap (cfg : Config) (payload : Text) : Bool :=
  decide (cfg.payloadCap < payload.length)

/-- The second size check of `ENCODE` (R178). -/
def exceedsTxCap (cfg : Config) (frame : Text) : Bool :=
  decide (cfg.txCap < frame.length)

/-- `TMR.DUE(now, last, interval)`: modular subtraction, unsigned comparison (R251). -/
def timerDue (now last interval : U32) : Bool :=
  decide (interval ≤ now - last)

end Sys2Proof.Machine
end

