-- ==== Sys2Proof/Machine/Format.lean ====
section
/-! DEFINITION. The pure half of the message codec: the frame layout (spec/30_encoding.md rule R90), `DECODE` and `ENCODE`
(spec/42_codec.md rules R170, R176), the literal frames (R181), the command table (R106) and the composed payloads
(R107, R109). None of these reads or writes state (R38). -/

namespace Sys2Proof.Machine

/-- The joined payload, which is the checksum input: `TYPE FS NODE FS [SEQ FS] DATA`, given the text of `SEQ` (R176). -/
def joinText (cfg : Config) (type node seqText data : Text) : Text :=
  type ++ FS :: node ++ FS :: (if cfg.seqAware then seqText ++ FS :: data else data)

/-- The joined payload of `ENCODE` (R176). -/
def joinPayload (cfg : Config) (type node : Text) (seq : Byte) (data : Text) : Text :=
  joinText cfg type node (decSeq seq) data

/-- `CHK.GEN(p) = hex2(xor8(p))` (R152). -/
def checksumText (p : Text) : Text :=
  hex2 (xor8 p)

/-- The frame body of a payload: `p FS CHK` (R90). -/
def bodyOf (p : Text) : Text :=
  p ++ FS :: checksumText p

/-- The framed output of a payload: `STX p FS CHK ETX` (R90). -/
def framed (p : Text) : Text :=
  STX :: bodyOf p ++ [ETX]

/-- `ENCODE(type, node, seq, data)` (R176). -/
def encodeFrame (cfg : Config) (type node : Text) (seq : Byte) (data : Text) : Except EncodeError Text :=
  let p := joinPayload cfg type node seq data
  if exceedsPayloadCap cfg p then .error .payloadTooLarge
  else if exceedsTxCap cfg (framed p) then .error .frameTooLarge
  else .ok (framed p)

/-- `lit(reason)`: the `SEQ` text is the constant `0` (R181). -/
def literalFrame (cfg : Config) (reason : Text) : Text :=
  framed (joinText cfg txtErr cfg.nodeId [0x30] reason)

/-- The constant `LIT_TX_TOO_LONG` (R181). -/
def litTxTooLongFrame (cfg : Config) : Text :=
  literalFrame cfg txtTxTooLong

/-- The constant `LIT_FRM_TOO_LONG` (R181). -/
def litFrmTooLongFrame (cfg : Config) : Text :=
  literalFrame cfg txtFrmTooLong

/-- Step 3 of `DECODE`: split the checksum input at its first two or three field delimiters (R170, R173). -/
def splitInput (cfg : Config) (input : Text) : Except DecodeError Message :=
  match findFirst input FS 0 with
  | none => .error .format
  | some a =>
    match findFirst input FS (a + 1) with
    | none => .error .format
    | some b =>
      if cfg.seqAware then
        match findFirst input FS (b + 1) with
        | none => .error .format
        | some c =>
          .ok { type := slice input 0 a
                node := slice input (a + 1) b
                seq := some (seqOfText (slice input (b + 1) c))
                data := slice input (c + 1) input.length }
      else
        .ok { type := slice input 0 a
              node := slice input (a + 1) b
              seq := none
              data := slice input (b + 1) input.length }

/-- `DECODE(f)` (R170): find the checksum field, validate it, split the checksum input. -/
def decodeBody (cfg : Config) (f : Text) : Except DecodeError Message :=
  match findLast f FS with
  | none => .error .format
  | some p =>
    if checksumMatches (slice f 0 p) (slice f (p + 1) f.length) then splitInput cfg (slice f 0 p)
    else .error .checksumMismatch

/-- The command table, matched on `data` (R106, R221). -/
def selectCommand (data : Text) : Command :=
  if data = txtPing then .ping
  else if data = txtStatus then .status
  else if startsWith data txtSetroute then .setroute (slice data 9 data.length)
  else if startsWith data txtSeteta then .seteta (slice data 7 data.length)
  else .unknown

/-- The data of the `STATUS` reply (R223). -/
def statusData (cfg : Config) (route : Text) (eta : U32) : Text :=
  txtNodeEq ++ cfg.nodeId ++ txtCommaRouteEq ++ route ++ txtCommaEtaEq ++ decI32 eta

/-- The data of the arrival frame (R254). -/
def arrivalData (cfg : Config) (route : Text) (eta : U32) : Text :=
  txtRouteEq ++ route ++ txtCommaStopEq ++ cfg.stopId ++ txtCommaEtaEq ++ decI32 eta

/-- The `SEQ` operand that a reply hands to `SEND`: the echoed number (R228); in the legacy form there is none and `ENCODE`
ignores it (R220). A sequence-aware node has no use of `none` (log entry 7). -/
def seqOperand (seq : Option Byte) : Byte :=
  seq.getD Config.missingSeq

end Sys2Proof.Machine
end

