-- ==== Sys2Proof/WellFormed.lean ====
section
/-! DEFINITION. Well-formed configurations (spec/00_scope.md rule R8) and well-formed instructions: the constraints that the
opcode table and the field table of spec/30_encoding.md rule R90 put on operands. Execution does not consult them: the rules
are total (R8). -/

namespace Sys2Proof

open Sys2Proof.Machine

/-- No byte is a frame delimiter (R113). -/
def noDelims (t : Text) : Bool :=
  t.all fun b => b != STX && b != ETX

/-- No byte is the field delimiter (R114). -/
def noFs (t : Text) : Bool :=
  t.all fun b => b != FS

/-- The content of a `TYPE` or `NODE` field (R90). -/
def fieldOk (t : Text) : Bool :=
  noDelims t && noFs t

/-- R8 item 1. -/
def Config.identitiesOk (c : Config) : Bool :=
  noDelims c.nodeId && noDelims c.stopId && noDelims c.routeInit

/-- R8 item 2. -/
def Config.nodeIdOk (c : Config) : Bool :=
  noFs c.nodeId

/-- R8 item 3. -/
def Config.routeFits (c : Config) : Bool :=
  decide (c.routeInit.length ≤ c.routeCap)

/-- R8 item 5: each literal error frame fits the transmitter. -/
def Config.literalsFit (c : Config) : Bool :=
  decide (c.nodeId.length + (if c.seqAware then 24 else 22) ≤ c.txCap)

/-- R8 item 6. -/
def Config.rxCapOk (c : Config) : Bool :=
  decide (1 ≤ c.rxCap)

/-- A well-formed configuration (R8). Item 4, the range of `ETA_INIT`, holds of every 32-bit value. -/
def Config.wf (c : Config) : Bool :=
  c.identitiesOk && c.nodeIdOk && c.routeFits && c.literalsFit && c.rxCapOk

/-- A frame body that the assembler can deliver: at most `RX_CAP` bytes, no delimiter among them (R132). -/
def bodyOk (c : Config) (body : Text) : Bool :=
  noDelims body && decide (body.length ≤ c.rxCap)

/-- `seq` is `none` exactly in the legacy form (R9). -/
def seqOk (c : Config) (seq : Option Byte) : Bool :=
  seq.isSome == c.seqAware

/-- A data byte: neither delimiter (R91). -/
def dataByte (b : Byte) : Bool :=
  b != STX && b != ETX

/-- Well-formed instructions: the operands their rows admit. -/
def Instr.wf (c : Config) : Instr → Bool
  | .rxStx => true
  | .rxEtx => true
  | .rxIdle b => b != STX
  | .rxData b => dataByte b
  | .rxOvf b => dataByte b
  | .rxbyte _ => true
  | .frameHandle body => bodyOk c body
  | .decode body => bodyOk c body
  | .xor8 _ => true
  | .chkGen _ => true
  | .chkVal _ _ => true
  | .encode _ _ _ _ => true
  | .send _ _ _ => true
  | .litTxTooLong => true
  | .litFrmTooLong => true
  | .dedupAccept _ => true
  | .cmdPing node seq => fieldOk node && seqOk c seq
  | .cmdStatus node seq => fieldOk node && seqOk c seq
  | .cmdSetroute node seq value => fieldOk node && seqOk c seq && noDelims value
  | .cmdSeteta node seq value => fieldOk node && seqOk c seq && noDelims value
  | .cmdUnknown node seq data =>
    fieldOk node && seqOk c seq && noDelims data && selectCommand data == .unknown
  | .typeOther type node seq data =>
    fieldOk type && fieldOk node && seqOk c seq && noDelims data && !isCommand type
  | .errFormat => true
  | .errChk => true
  | .errRxOverflow => true
  | .poll _ => true
  | .tmrDue _ _ _ => true
  | .txseqAlloc => true
  | .tlmHb => true
  | .tlmArr => true
  | .tlmDl => true
  | .reset => true

end Sys2Proof
end

