-- ==== Sys2Proof/Decode.lean ====
section
/-! DEFINITION. The decoder and the encoder of the opcode table, one entry for each format of spec/30_encoding.md rule R120:
an arriving byte (`BYTE`), a received body (`FRAME_IN`), a framed output (`FRAME_OUT`), a call form (`EVENT`, `FUNC`). The
hardware has no fixed-width instruction word and fetches no program (R35, R120). -/

namespace Sys2Proof

open Sys2Proof.Machine

/-- What selects among rows of one pattern, and what the templates of transmitted frames refer to: the configuration and the
registers that a `BYTE` row's `state` or a `FRAME_OUT` row's place-holders name (R120). -/
structure Ctx where
  cfg : Config
  receiving : Bool
  rxFull : Bool
  txSeq : Byte
  routeId : Text
  etaMinutes : U32
  deriving DecidableEq, Repr

/-- An operand of a call form. -/
inductive Arg where
  | byte (b : Byte)
  | word (w : U32)
  | text (t : Text)
  deriving DecidableEq, Repr

/-- An encoded row, by format (R120). A call form is a name and its operands: the spec gives it no bytes (log entry 10). -/
inductive Code where
  | byte (b : Byte)
  | frameIn (body : Text)
  | frameOut (frame : Text)
  | call (name : Text) (args : List Arg)
  deriving DecidableEq, Repr

/-- Why the decoder rejects, by name. -/
inductive Reject where
  /-- A body or framed output in which `DECODE` finds a format error. -/
  | bodyFormat
  /-- A body or framed output in which `DECODE` finds a checksum mismatch. -/
  | bodyChecksum
  /-- A framed output without its two delimiters. -/
  | frameDelimiters
  /-- A framed output from another node. -/
  | frameNode
  /-- A framed output that is no `FRAME_OUT` row of the table (a reply to a command, for example). -/
  | frameRow
  /-- A call of a name that the table does not have. -/
  | callName
  /-- A call with operands of the wrong number or kind. -/
  | callOperands
  deriving DecidableEq, Repr

/-! The names of the call forms, as the table's `encoding` column spells them, in ASCII (R92). -/

/-- `RXBYTE`. -/
def nameRxbyte : Text := [0x52, 0x58, 0x42, 0x59, 0x54, 0x45]

/-- `POLL`. -/
def namePoll : Text := [0x50, 0x4F, 0x4C, 0x4C]

/-- `RESET`. -/
def nameReset : Text := [0x52, 0x45, 0x53, 0x45, 0x54]

/-- `FRAME.HANDLE`. -/
def nameFrameHandle : Text := [0x46, 0x52, 0x41, 0x4D, 0x45, 0x2E, 0x48, 0x41, 0x4E, 0x44, 0x4C, 0x45]

/-- `DECODE`. -/
def nameDecode : Text := [0x44, 0x45, 0x43, 0x4F, 0x44, 0x45]

/-- `xor8`. -/
def nameXor8 : Text := [0x78, 0x6F, 0x72, 0x38]

/-- `CHK.GEN`. -/
def nameChkGen : Text := [0x43, 0x48, 0x4B, 0x2E, 0x47, 0x45, 0x4E]

/-- `CHK.VAL`. -/
def nameChkVal : Text := [0x43, 0x48, 0x4B, 0x2E, 0x56, 0x41, 0x4C]

/-- `ENCODE`. -/
def nameEncode : Text := [0x45, 0x4E, 0x43, 0x4F, 0x44, 0x45]

/-- `SEND`. -/
def nameSend : Text := [0x53, 0x45, 0x4E, 0x44]

/-- `DEDUP.ACCEPT`. -/
def nameDedupAccept : Text := [0x44, 0x45, 0x44, 0x55, 0x50, 0x2E, 0x41, 0x43, 0x43, 0x45, 0x50, 0x54]

/-- `TMR.DUE`. -/
def nameTmrDue : Text := [0x54, 0x4D, 0x52, 0x2E, 0x44, 0x55, 0x45]

/-- `TXSEQ.ALLOC`. -/
def nameTxseqAlloc : Text := [0x54, 0x58, 0x53, 0x45, 0x51, 0x2E, 0x41, 0x4C, 0x4C, 0x4F, 0x43]

/-- The `BYTE` rows, in priority order (R120, R130). -/
def decodeByte (receiving full : Bool) (b : Byte) : Instr :=
  match selectByte receiving full b with
  | .stx => .rxStx
  | .idle => .rxIdle b
  | .etx => .rxEtx
  | .data => .rxData b
  | .ovf => .rxOvf b

/-- The `FRAME_IN` row of a decoded message: by `TYPE`, then by `DATA` (R120). -/
def decodeMessage (m : Message) : Instr :=
  if isCommand m.type then
    match selectCommand m.data with
    | .ping => .cmdPing m.node m.seq
    | .status => .cmdStatus m.node m.seq
    | .setroute v => .cmdSetroute m.node m.seq v
    | .seteta v => .cmdSeteta m.node m.seq v
    | .unknown => .cmdUnknown m.node m.seq m.data
  else .typeOther m.type m.node m.seq m.data

/-- The name under which the decoder rejects an error of `DECODE`. -/
def rejectOf : DecodeError → Reject
  | .format => .bodyFormat
  | .checksumMismatch => .bodyChecksum

/-- The `FRAME_IN` rows. -/
def decodeFrameIn (c : Config) (body : Text) : Except Reject Instr :=
  match decodeBody c body with
  | .error e => .error (rejectOf e)
  | .ok m => .ok (decodeMessage m)

/-- The `FRAME_OUT` row of an `ERR` frame: by its reason; the two literals carry the constant `0` as their `SEQ` (R181). -/
def decodeErrOut (m : Message) : Except Reject Instr :=
  if m.data = txtFormat then .ok .errFormat
  else if m.data = txtChk then .ok .errChk
  else if m.data = txtRxOverflow then .ok .errRxOverflow
  else if m.data = txtTxTooLong ∧ m.seq.getD 0 = 0 then .ok .litTxTooLong
  else if m.data = txtFrmTooLong ∧ m.seq.getD 0 = 0 then .ok .litFrmTooLong
  else .error .frameRow

/-- The `FRAME_OUT` row of a decoded message. The place-holders `<seq>`, `<route_id>` and `<eta>` stand for any value; an
arrival payload is told by its first key (log entry 11). -/
def decodeMessageOut (c : Config) (m : Message) : Except Reject Instr :=
  if m.node ≠ c.nodeId then .error .frameNode
  else if m.type = txtErr then decodeErrOut m
  else if m.type = txtHb ∧ m.data = txtOk then .ok .tlmHb
  else if m.type = txtArr ∧ startsWith m.data txtRouteEq then .ok .tlmArr
  else if m.type = txtDl ∧ m.data = txtFiveMin then .ok .tlmDl
  else .error .frameRow

/-- The `FRAME_OUT` rows: strip the delimiters, decode the body, select the row. -/
def decodeFrameOut (c : Config) : Text → Except Reject Instr
  | [] => .error .frameDelimiters
  | b :: rest =>
    if b = STX ∧ rest.getLast? = some ETX then
      match decodeBody c rest.dropLast with
      | .error e => .error (rejectOf e)
      | .ok m => decodeMessageOut c m
    else .error .frameDelimiters

/-- The `EVENT` and `FUNC` rows, and `FRAME.HANDLE`, which R220 gives the format `FUNC`. -/
def decodeCall (name : Text) (args : List Arg) : Except Reject Instr :=
  if name = nameRxbyte then
    match args with
    | [.byte b] => .ok (.rxbyte b)
    | _ => .error .callOperands
  else if name = namePoll then
    match args with
    | [.word now] => .ok (.poll now)
    | _ => .error .callOperands
  else if name = nameReset then
    match args with
    | [] => .ok .reset
    | _ => .error .callOperands
  else if name = nameFrameHandle then
    match args with
    | [.text body] => .ok (.frameHandle body)
    | _ => .error .callOperands
  else if name = nameDecode then
    match args with
    | [.text body] => .ok (.decode body)
    | _ => .error .callOperands
  else if name = nameXor8 then
    match args with
    | [.text s] => .ok (.xor8 s)
    | _ => .error .callOperands
  else if name = nameChkGen then
    match args with
    | [.text p] => .ok (.chkGen p)
    | _ => .error .callOperands
  else if name = nameChkVal then
    match args with
    | [.text input, .text field] => .ok (.chkVal input field)
    | _ => .error .callOperands
  else if name = nameEncode then
    match args with
    | [.text type, .text node, .byte seq, .text data] => .ok (.encode type node seq data)
    | _ => .error .callOperands
  else if name = nameSend then
    match args with
    | [.text type, .byte seq, .text data] => .ok (.send type seq data)
    | _ => .error .callOperands
  else if name = nameDedupAccept then
    match args with
    | [.byte seq] => .ok (.dedupAccept seq)
    | _ => .error .callOperands
  else if name = nameTmrDue then
    match args with
    | [.word now, .word last, .word interval] => .ok (.tmrDue now last interval)
    | _ => .error .callOperands
  else if name = nameTxseqAlloc then
    match args with
    | [] => .ok .txseqAlloc
    | _ => .error .callOperands
  else .error .callName

/-- The decoder: total, rejecting by name (R120). -/
def decode (x : Ctx) : Code → Except Reject Instr
  | .byte b => .ok (decodeByte x.receiving x.rxFull b)
  | .frameIn body => decodeFrameIn x.cfg body
  | .frameOut frame => decodeFrameOut x.cfg frame
  | .call name args => decodeCall name args

/-- The code of an event: a byte as it arrives, a poll and a reset by their call forms (R120). -/
def eventCode : Event → Code
  | .rxbyte b => .byte b
  | .poll now => .call namePoll [.word now]
  | .reset => .call nameReset []

/-! The encoder, from the same tables. -/

/-- The text of an optional `SEQ` field; a legacy template has none (R120). -/
def seqText (seq : Option Byte) : Text :=
  decSeq (seqOperand seq)

/-- The body template `<type>|<node>|[<seq>|]<data>|<HH>` (R90, R120). -/
def bodyTemplate (c : Config) (type node : Text) (seq : Option Byte) (data : Text) : Text :=
  bodyOf (joinText c type node (seqText seq) data)

/-- The framed-output template `<02><type>|<NODE_ID>|[<s>|]<data>|<HH><03>`, `s` being the next allocation (R120). -/
def outTemplate (x : Ctx) (type data : Text) : Text :=
  framed (joinPayload x.cfg type x.cfg.nodeId x.txSeq data)

/-- The encoder: the code of an instruction. -/
def encode (x : Ctx) : Instr → Code
  | .rxStx => .byte STX
  | .rxEtx => .byte ETX
  | .rxIdle b => .byte b
  | .rxData b => .byte b
  | .rxOvf b => .byte b
  | .rxbyte b => .call nameRxbyte [.byte b]
  | .frameHandle body => .call nameFrameHandle [.text body]
  | .decode body => .call nameDecode [.text body]
  | .xor8 s => .call nameXor8 [.text s]
  | .chkGen p => .call nameChkGen [.text p]
  | .chkVal input field => .call nameChkVal [.text input, .text field]
  | .encode type node seq data => .call nameEncode [.text type, .text node, .byte seq, .text data]
  | .send type seq data => .call nameSend [.text type, .byte seq, .text data]
  | .litTxTooLong => .frameOut (litTxTooLongFrame x.cfg)
  | .litFrmTooLong => .frameOut (litFrmTooLongFrame x.cfg)
  | .dedupAccept seq => .call nameDedupAccept [.byte seq]
  | .cmdPing node seq => .frameIn (bodyTemplate x.cfg txtCmd node seq txtPing)
  | .cmdStatus node seq => .frameIn (bodyTemplate x.cfg txtCmd node seq txtStatus)
  | .cmdSetroute node seq value => .frameIn (bodyTemplate x.cfg txtCmd node seq (txtSetroute ++ value))
  | .cmdSeteta node seq value => .frameIn (bodyTemplate x.cfg txtCmd node seq (txtSeteta ++ value))
  | .cmdUnknown node seq data => .frameIn (bodyTemplate x.cfg txtCmd node seq data)
  | .typeOther type node seq data => .frameIn (bodyTemplate x.cfg type node seq data)
  | .errFormat => .frameOut (outTemplate x txtErr txtFormat)
  | .errChk => .frameOut (outTemplate x txtErr txtChk)
  | .errRxOverflow => .frameOut (outTemplate x txtErr txtRxOverflow)
  | .poll now => .call namePoll [.word now]
  | .tmrDue now last interval => .call nameTmrDue [.word now, .word last, .word interval]
  | .txseqAlloc => .call nameTxseqAlloc []
  | .tlmHb => .frameOut (outTemplate x txtHb txtOk)
  | .tlmArr => .frameOut (outTemplate x txtArr (arrivalData x.cfg x.routeId x.etaMinutes))
  | .tlmDl => .frameOut (outTemplate x txtDl txtFiveMin)
  | .reset => .call nameReset []

/-- The state condition of a `BYTE` row (the table's `state`); the other rows have none. -/
def Instr.selectableIn (x : Ctx) : Instr → Bool
  | .rxEtx => x.receiving
  | .rxIdle _ => !x.receiving
  | .rxData _ => x.receiving && !x.rxFull
  | .rxOvf _ => x.receiving && x.rxFull
  | .rxStx => true
  | .rxbyte _ => true
  | .frameHandle _ => true
  | .decode _ => true
  | .xor8 _ => true
  | .chkGen _ => true
  | .chkVal _ _ => true
  | .encode _ _ _ _ => true
  | .send _ _ _ => true
  | .litTxTooLong => true
  | .litFrmTooLong => true
  | .dedupAccept _ => true
  | .cmdPing _ _ => true
  | .cmdStatus _ _ => true
  | .cmdSetroute _ _ _ => true
  | .cmdSeteta _ _ _ => true
  | .cmdUnknown _ _ _ => true
  | .typeOther _ _ _ _ => true
  | .errFormat => true
  | .errChk => true
  | .errRxOverflow => true
  | .poll _ => true
  | .tmrDue _ _ _ => true
  | .txseqAlloc => true
  | .tlmHb => true
  | .tlmArr => true
  | .tlmDl => true
  | .reset => true

/-- The format of an instruction's code, as the table's `format` column has it, but for `FRAME.HANDLE` (R220: `FUNC`). -/
def Instr.format : Instr → Format
  | .rxStx => .byte
  | .rxEtx => .byte
  | .rxIdle _ => .byte
  | .rxData _ => .byte
  | .rxOvf _ => .byte
  | .rxbyte _ => .event
  | .frameHandle _ => .func
  | .decode _ => .func
  | .xor8 _ => .func
  | .chkGen _ => .func
  | .chkVal _ _ => .func
  | .encode _ _ _ _ => .func
  | .send _ _ _ => .func
  | .litTxTooLong => .frameOut
  | .litFrmTooLong => .frameOut
  | .dedupAccept _ => .func
  | .cmdPing _ _ => .frameIn
  | .cmdStatus _ _ => .frameIn
  | .cmdSetroute _ _ _ => .frameIn
  | .cmdSeteta _ _ _ => .frameIn
  | .cmdUnknown _ _ _ => .frameIn
  | .typeOther _ _ _ _ => .frameIn
  | .errFormat => .frameOut
  | .errChk => .frameOut
  | .errRxOverflow => .frameOut
  | .poll _ => .event
  | .tmrDue _ _ _ => .func
  | .txseqAlloc => .func
  | .tlmHb => .frameOut
  | .tlmArr => .frameOut
  | .tlmDl => .frameOut
  | .reset => .event

/-- Whether a code is of a format. -/
def Code.isOf : Code → Format → Bool
  | .byte _, .byte => true
  | .frameIn _, .frameIn => true
  | .frameOut _, .frameOut => true
  | .call _ _, .event => true
  | .call _ _, .func => true
  | _, _ => false

/-! The table's numbering of bits, for the host's questions. -/

/-- The bytes of a word of the opcode table, the first byte in bits 7..0. -/
def tableBytes (nbits w : Nat) : Text :=
  (List.range (nbits / 8)).map fun k => BitVec.ofNat 8 (w >>> (8 * k))

/-- The configuration and registers right after reset, for reading a word with no state beside it. -/
def refCtx : Ctx where
  cfg := cfgRef
  receiving := false
  rxFull := false
  txSeq := cfgRef.txSeqInit
  routeId := cfgRef.routeInit
  etaMinutes := cfgRef.etaInit

/-- The instruction of a word of the opcode table. One byte is read by the `BYTE` rows in priority order, their `state` aside:
`0x03` is `RX.ETX`, every other byte but `0x02` is `RX.IDLE` (log entry 14). More bytes are read as a received body. -/
def decodeTableWord (nbits w : Nat) : Option Instr :=
  match tableBytes nbits w with
  | [] => none
  | [b] => (decode { refCtx with receiving := b == ETX } (.byte b)).toOption
  | body => (decode refCtx (.frameIn body)).toOption

end Sys2Proof
end

