-- ==== Sys2Proof/Machine/State.lean ====
section
/-! DEFINITION. The state of the machine (spec/10_state.md rule R20), its value after reset (R39), and the reasons a step can
stop. -/

namespace Sys2Proof.Machine

/-- Why the machine stops with a fault. No step raises one: the spec has no fatal error (R295). -/
inductive Fault where
  /-- Raised by `RX.DATA` executed in a state whose buffer is full: the write would be to an index of `RXBUF` that does not
  exist (R61, which says that the capacity test comes first; `RXBYTE` makes that test). Safe (log entry 5). -/
  | rxbufIndex
  deriving DecidableEq, Repr

/-- Why an instruction is refused. -/
inductive Refusal where
  /-- Raised by an arm of `exec` for an instruction that has no meaning yet. No arm does. Safe. -/
  | notModelled (mnemonic : String)
  /-- Raised by a step whose event the decoder rejects. No event is rejected. Safe. -/
  | undecodable (why : Reject)
  deriving DecidableEq, Repr

/-- The state: the ten elements of R20 (`rx_buf` and `rx_len` as one byte string, R23), the `TX` log (R32), and three fields of
the model's own, named so. -/
structure State where
  /-- `receiving`: inside a frame (R21). -/
  receiving : Bool
  /-- `rx_buf[0..rx_len)`; its length is `rx_len` (R22, R23; log entry 4). -/
  rxBuf : Text
  /-- `last_host_seq`, the sequence watermark (R25). -/
  lastHostSeq : U9
  /-- `tx_seq` (R26). -/
  txSeq : Byte
  /-- `last_fire_hb` (R27). -/
  lastFireHb : U32
  /-- `last_fire_arr` (R27). -/
  lastFireArr : U32
  /-- `last_fire_dl` (R27). -/
  lastFireDl : U32
  /-- `route_id` (R29). -/
  routeId : Text
  /-- `eta_minutes`, an `i32` in two's complement (R30). -/
  etaMinutes : U32
  /-- The `TX` log: the framed outputs handed to `Transmit`, oldest first (R32, R63). -/
  tx : List Text
  /-- The MODEL's own: the configuration, fixed before `RESET`, written by nothing (R6, R34; log entry 1). -/
  cfg : Config
  /-- The MODEL's own: the events the environment delivers next, in order (R10; log entry 2). -/
  pending : List Event
  /-- The MODEL's own: the value that the operation just executed returned; no step keeps it (R31; log entry 3). -/
  ret : Ret
  deriving DecidableEq, Repr

/-- The state that `RESET` leaves in a machine of configuration `c` (R39), with nothing transmitted and nothing pending. -/
def State.resetOf (c : Config) : State where
  receiving := false
  rxBuf := []
  lastHostSeq := seqNone
  txSeq := c.txSeqInit
  lastFireHb := 0
  lastFireArr := 0
  lastFireDl := 0
  routeId := c.routeInit
  etaMinutes := c.etaInit
  tx := []
  cfg := c
  pending := []
  ret := .none

/-- The machine right after reset, in the reference configuration (R6, R39). -/
def State.reset : State :=
  State.resetOf cfgRef

end Sys2Proof.Machine
end

