-- ==== Sys2Proof/Machine/Ops.lean ====
section
/-! DEFINITION. The named operations over the state that several instructions share: register writes (R11), the two byte
spaces (spec/20_memory.md rules R60 to R62), `Transmit` (R63), the sequence counter (R252), sending with substitution (R180),
and taking an error (R270, R293). The spec has no return from an error (R294): there is nothing saved and nothing to return to. -/

namespace Sys2Proof.Machine

/-! Register writes, one for each field. -/

/-- `receiving <- v`. -/
def State.setReceiving (s : State) (v : Bool) : State := { s with receiving := v }

/-- `rx_buf[0..rx_len) <- v`, `rx_len <- len(v)`. -/
def State.setRxBuf (s : State) (v : Text) : State := { s with rxBuf := v }

/-- `last_host_seq <- v`. -/
def State.setLastHostSeq (s : State) (v : U9) : State := { s with lastHostSeq := v }

/-- `tx_seq <- v`. -/
def State.setTxSeq (s : State) (v : Byte) : State := { s with txSeq := v }

/-- `last_fire_hb <- v`. -/
def State.setLastFireHb (s : State) (v : U32) : State := { s with lastFireHb := v }

/-- `last_fire_arr <- v`. -/
def State.setLastFireArr (s : State) (v : U32) : State := { s with lastFireArr := v }

/-- `last_fire_dl <- v`. -/
def State.setLastFireDl (s : State) (v : U32) : State := { s with lastFireDl := v }

/-- `route_id <- v`. -/
def State.setRouteId (s : State) (v : Text) : State := { s with routeId := v }

/-- `eta_minutes <- v`. -/
def State.setEtaMinutes (s : State) (v : U32) : State := { s with etaMinutes := v }

/-- The environment's queue of events. -/
def State.setPending (s : State) (v : List Event) : State := { s with pending := v }

/-- The value the operation returns (R11 `return v`). -/
def State.setRet (s : State) (v : Ret) : State := { s with ret := v }

/-- `Transmit(f)`: append one framed output to the `TX` log (R63). -/
def State.transmit (s : State) (f : Text) : State := { s with tx := s.tx ++ [f] }

/-- `rx_len` (R22). -/
def State.rxLen (s : State) : Nat := s.rxBuf.length

/-- What the decoder sees of the state. -/
def State.ctx (s : State) : Ctx where
  cfg := s.cfg
  receiving := s.receiving
  rxFull := bufferFull s.cfg s.rxLen
  txSeq := s.txSeq
  routeId := s.routeId
  etaMinutes := s.etaMinutes

/-! The two stored byte spaces, `RXBUF` and `ROUTE` (R60). -/

/-- The stored byte spaces of R60. -/
inductive Space where
  | rxbuf
  | route
  deriving DecidableEq, Repr

/-- The bytes a space holds, index 0 first. Indices beyond them are unspecified, and no rule reads them (R23). -/
def spaceBytes (sp : Space) (s : State) : Text :=
  match sp with
  | .rxbuf => s.rxBuf
  | .route => s.routeId

/-- The size of a space in bytes (R60). -/
def spaceSize (sp : Space) (c : Config) : Nat :=
  match sp with
  | .rxbuf => c.rxCap
  | .route => c.routeCap

/-- One byte of a space, `none` where the space holds none. -/
def memByte (sp : Space) (s : State) (a : Nat) : Option Byte :=
  (spaceBytes sp s)[a]?

/-- `MemRead(space, addr, n)` (R11). -/
def memRead (sp : Space) (s : State) (addr n : Nat) : Text :=
  slice (spaceBytes sp s) addr (addr + n)

/-- A space as a list of addresses and bytes. Two spaces that hold the same bytes are the same list. -/
def memCells (sp : Space) (s : State) : List Host.Cell :=
  (spaceBytes sp s).zipIdx.map fun x => (x.2, x.1)

/-- The canonical form of memory: each space holds the bytes from index 0 on, at most its size of them (R24, R60). -/
def Memory.wf (s : State) : Bool :=
  decide (s.rxBuf.length ≤ s.cfg.rxCap) && decide (s.routeId.length ≤ s.cfg.routeCap)

/-- `MemWrite(RXBUF, rx_len, 1, b)` and `rx_len <- rx_len + 1`, the only write form of `RXBUF`. An index beyond the space does
not exist (R61). -/
def appendRx (b : Byte) (s : State) : Host.Outcome State Fault Refusal :=
  if bufferFull s.cfg s.rxLen then .fault .rxbufIndex
  else .next (s.setRxBuf (s.rxBuf ++ [b]))

/-- `MemWrite(ROUTE, 0, n, v[0..n))` with `n = min(len(v), ROUTE_CAP)`, and the length set to `n` (R62). -/
def writeRoute (v : Text) (s : State) : State :=
  s.setRouteId (slice v 0 (min v.length s.cfg.routeCap))

/-! Sending. -/

/-- `TXSEQ.ALLOC`: the value before the increment, and the state after it (R252). -/
def allocSeq (s : State) : Byte × State :=
  (s.txSeq, s.setTxSeq (s.txSeq + 1))

/-- The literal frame that replaces a frame which does not fit (R180, R271). -/
def substitute (e : EncodeError) (s : State) : State :=
  match e with
  | .payloadTooLarge => s.transmit (litTxTooLongFrame s.cfg)
  | .frameTooLarge => s.transmit (litFrmTooLongFrame s.cfg)

/-- `SEND(type, seq, data)`: encode and transmit, or transmit the literal frame that replaces it (R180). -/
def sendFrame (type : Text) (seq : Byte) (data : Text) (s : State) : State :=
  match encodeFrame s.cfg type s.cfg.nodeId seq data with
  | .error e => substitute e s
  | .ok f => s.transmit f

/-- `s = TXSEQ.ALLOC; SEND(type, s, data)`: the shape of every frame that is no reply to a command (R252). -/
def sendAuto (type data : Text) (s : State) : State :=
  let v := allocSeq s
  sendFrame type v.1 data v.2

/-- `REPLY(type, seq, data)`: `SEND` with the host's number echoed (R228). -/
def reply (type : Text) (seq : Option Byte) (data : Text) (s : State) : State :=
  sendFrame type (seqOperand seq) data s

/-! Taking an error. -/

/-- What each error kind does: the state change and the frame of its row in R270, and nothing else (R293). `seq` is the decoded
message's, for the two kinds that echo it. -/
def takeError (k : ErrorKind) (seq : Option Byte) (s : State) : State :=
  match k with
  | .format => sendAuto txtErr txtFormat s
  | .checksumMismatch => sendAuto txtErr txtChk s
  | .duplicateSequence => s
  | .bufferOverflow => sendAuto txtErr txtRxOverflow s
  | .payloadTooLarge => substitute .payloadTooLarge s
  | .frameTooLarge => substitute .frameTooLarge s
  | .unknownCommand => reply txtErr seq txtUnknownCmd s
  | .unknownType => if s.cfg.unknownTypeReply then reply txtErr seq txtUnknownType s else s

/-! The ends of an event. -/

/-- An event is over: what its operation returned is kept no longer (R31). -/
def endEvent : Host.Outcome State Fault Refusal → Host.Outcome State Fault Refusal
  | .next s => .next (s.setRet .none)
  | .fault f => .fault f
  | .refused r => .refused r

/-- The state in which the very next event brings the instruction of a table word (log entry 14): one byte arrives, with
`receiving` as the row of the byte requires; a longer word is a body of which only the end delimiter is still to come. -/
def placeWord (s : State) (nbits w : Nat) : State :=
  match tableBytes nbits w with
  | [] => s
  | [b] =>
    if b = STX then s.setPending (.rxbyte b :: s.pending)
    else (s.setReceiving (b == ETX)).setPending (.rxbyte b :: s.pending)
  | body => ((s.setReceiving true).setRxBuf body).setPending (.rxbyte ETX :: s.pending)

end Sys2Proof.Machine
end

