-- ==== Sys2Proof/Machine/Dedup.lean ====
section
/-! DEFINITION. The sequence-number deduplication register (spec/43_dedup.md rule R210). -/

namespace Sys2Proof.Machine

/-- `DEDUP.ACCEPT(seq)`: the result, and the state after it; the register is written only on acceptance (R210). -/
def dedupAccept (seq : Byte) (s : State) : Bool × State :=
  if isDuplicate s.lastHostSeq seq then (false, s)
  else (true, s.setLastHostSeq (seq.setWidth 9))

/-- `DEDUP.ACCEPT(seq)` (R210). -/
def execDedupAccept (seq : Byte) (s : State) : Host.Outcome State Fault Refusal :=
  let r := dedupAccept seq s
  .next (r.2.setRet (.bool r.1))

end Sys2Proof.Machine
end

