-- ==== Sys2Proof/Machine/Dispatcher.lean ====
section
/-! DEFINITION. Frame handling and the command dispatcher (spec/44_dispatcher.md rules R220 to R228). -/

namespace Sys2Proof.Machine

/-- `CMD.PING(seq)` (R222). -/
def cmdPing (seq : Option Byte) (s : State) : State :=
  reply txtAck seq txtPong s

/-- `CMD.STATUS(seq)` (R223). -/
def cmdStatus (seq : Option Byte) (s : State) : State :=
  reply txtStatus seq (statusData s.cfg s.routeId s.etaMinutes) s

/-- `CMD.SETROUTE(seq, value)`: the write comes before the reply (R224). -/
def cmdSetroute (seq : Option Byte) (value : Text) (s : State) : State :=
  reply txtAck seq txtRouteSet (writeRoute value s)

/-- `CMD.SETETA(seq, value)`: the write comes before the reply (R225). -/
def cmdSeteta (seq : Option Byte) (value : Text) (s : State) : State :=
  reply txtAck seq txtEtaSet (s.setEtaMinutes (wrapI32 (parseInt value)))

/-- `CMD.UNKNOWN(seq)` (R226). -/
def cmdUnknown (seq : Option Byte) (s : State) : State :=
  takeError .unknownCommand seq s

/-- `TYPE.OTHER(seq)` (R227). -/
def typeOther (seq : Option Byte) (s : State) : State :=
  takeError .unknownType seq s

/-- The command that `data` selects (R221). -/
def runCommand (seq : Option Byte) (data : Text) (s : State) : State :=
  match selectCommand data with
  | .ping => cmdPing seq s
  | .status => cmdStatus seq s
  | .setroute v => cmdSetroute seq v s
  | .seteta v => cmdSeteta seq v s
  | .unknown => cmdUnknown seq s

/-- `SEQ_AWARE and not DEDUP.ACCEPT(seq)`: a duplicate is dropped, and the legacy form does not ask (R211, R214, R220). -/
def acceptCommand (seq : Option Byte) (s : State) : Bool × State :=
  if s.cfg.seqAware then dedupAccept (seqOperand seq) s else (true, s)

/-- What follows an accepted decode: the type test, the duplicate test, the command (R220, R292). -/
def handleMessage (m : Message) (s : State) : State :=
  if isCommand m.type then
    let r := acceptCommand m.seq s
    if r.1 then runCommand m.seq m.data r.2 else takeError .duplicateSequence m.seq r.2
  else typeOther m.seq s

/-- `FRAME.HANDLE(f)` (R220). -/
def frameHandle (body : Text) (s : State) : State :=
  match decodeBody s.cfg body with
  | .error .format => takeError .format none s
  | .error .checksumMismatch => takeError .checksumMismatch none s
  | .ok m => handleMessage m s

/-- `FRAME.HANDLE` (R220). -/
def execFrameHandle (body : Text) (s : State) : Host.Outcome State Fault Refusal :=
  .next (frameHandle body s)

/-- `CMD.PING` (R222); `<node>` is not examined (R232). -/
def execCmdPing (_node : Text) (seq : Option Byte) (s : State) : Host.Outcome State Fault Refusal :=
  .next (cmdPing seq s)

/-- `CMD.STATUS` (R223); `<node>` is not examined (R232). -/
def execCmdStatus (_node : Text) (seq : Option Byte) (s : State) : Host.Outcome State Fault Refusal :=
  .next (cmdStatus seq s)

/-- `CMD.SETROUTE` (R224); `<node>` is not examined (R232). -/
def execCmdSetroute (_node : Text) (seq : Option Byte) (value : Text) (s : State) :
    Host.Outcome State Fault Refusal :=
  .next (cmdSetroute seq value s)

/-- `CMD.SETETA` (R225); `<node>` is not examined (R232). -/
def execCmdSeteta (_node : Text) (seq : Option Byte) (value : Text) (s : State) :
    Host.Outcome State Fault Refusal :=
  .next (cmdSeteta seq value s)

/-- `CMD.UNKNOWN` (R226); `<node>` and the text that matched no command are not examined further. -/
def execCmdUnknown (_node : Text) (seq : Option Byte) (_data : Text) (s : State) :
    Host.Outcome State Fault Refusal :=
  .next (cmdUnknown seq s)

/-- `TYPE.OTHER` (R227); only `seq` is used. -/
def execTypeOther (_type _node : Text) (seq : Option Byte) (_data : Text) (s : State) :
    Host.Outcome State Fault Refusal :=
  .next (typeOther seq s)

end Sys2Proof.Machine
end

