-- ==== Sys2Proof/Machine/Assembler.lean ====
section
/-! DEFINITION. The frame assembler (spec/40_frame_assembler.md rules R130 to R135). -/

namespace Sys2Proof.Machine

/-- `rx_len <- 0`, and `receiving <- v`. -/
def restart (v : Bool) (s : State) : State :=
  (s.setRxBuf []).setReceiving v

/-- `RX.STX`: start of frame (R131). -/
def execRxStx (s : State) : Host.Outcome State Fault Refusal :=
  .next (restart true s)

/-- `RX.ETX`: end of frame; the body is handled in the same event (R132). -/
def execRxEtx (s : State) : Host.Outcome State Fault Refusal :=
  .next (frameHandle (memRead .rxbuf s 0 s.rxLen) (restart false s))

/-- `RX.IDLE(b)`: the byte is dropped (R135). -/
def execRxIdle (_b : Byte) (s : State) : Host.Outcome State Fault Refusal :=
  .next s

/-- `RX.DATA(b)`: store one body byte (R133). -/
def execRxData (b : Byte) (s : State) : Host.Outcome State Fault Refusal :=
  appendRx b s

/-- `RX.OVF(b)`: the byte and the stored bytes are lost, and one `ERR` frame reports it (R134). -/
def execRxOvf (_b : Byte) (s : State) : Host.Outcome State Fault Refusal :=
  .next (takeError .bufferOverflow none (restart false s))

/-- `RXBYTE(b)`: exactly one of the five operations (R130). -/
def execRxbyte (b : Byte) (s : State) : Host.Outcome State Fault Refusal :=
  match selectByte s.receiving (bufferFull s.cfg s.rxLen) b with
  | .stx => execRxStx s
  | .idle => execRxIdle b s
  | .etx => execRxEtx s
  | .data => execRxData b s
  | .ovf => execRxOvf b s

end Sys2Proof.Machine
end

