-- ==== Sys2Proof/Machine/Checksum.lean ====
section
/-! DEFINITION. The checksum operations (spec/41_checksum.md rules R150, R152, R153). Each is a pure function of its operands;
its value is what the operation returns. -/

namespace Sys2Proof.Machine

/-- `XOR8(s)` (R150). -/
def execXor8 (t : Text) (s : State) : Host.Outcome State Fault Refusal :=
  .next (s.setRet (.byte (xor8 t)))

/-- `CHK.GEN(p)` (R152). -/
def execChkGen (payload : Text) (s : State) : Host.Outcome State Fault Refusal :=
  .next (s.setRet (.text (checksumText payload)))

/-- `CHK.VAL(input, field)` (R153). -/
def execChkVal (input field : Text) (s : State) : Host.Outcome State Fault Refusal :=
  .next (s.setRet (.bool (checksumMatches input field)))

end Sys2Proof.Machine
end

