-- ==== Sys2Proof/Machine/Codec.lean ====
section
/-! DEFINITION. The codec operations (spec/42_codec.md rules R170, R176, R180, R181). -/

namespace Sys2Proof.Machine

/-- What `DECODE` returns: a message or one error kind (R170). -/
def decodeRet : Except DecodeError Message → Ret
  | .ok m => .message m
  | .error e => .decodeError e

/-- What `ENCODE` returns: a framed output or one error kind (R176). -/
def encodeRet : Except EncodeError Text → Ret
  | .ok f => .text f
  | .error e => .encodeError e

/-- `DECODE(f)` (R170). -/
def execDecode (body : Text) (s : State) : Host.Outcome State Fault Refusal :=
  .next (s.setRet (decodeRet (decodeBody s.cfg body)))

/-- `ENCODE(type, node, seq, data)` (R176). -/
def execEncode (type node : Text) (seq : Byte) (data : Text) (s : State) : Host.Outcome State Fault Refusal :=
  .next (s.setRet (encodeRet (encodeFrame s.cfg type node seq data)))

/-- `SEND(type, seq, data)` (R180). -/
def execSend (type : Text) (seq : Byte) (data : Text) (s : State) : Host.Outcome State Fault Refusal :=
  .next (sendFrame type seq data s)

/-- `LIT.TX_TOO_LONG`: the constant frame. It writes no state; `SEND` is what transmits it (R38, R181; log entry 8). -/
def execLitTxTooLong (s : State) : Host.Outcome State Fault Refusal :=
  .next (s.setRet (.text (litTxTooLongFrame s.cfg)))

/-- `LIT.FRM_TOO_LONG`: the constant frame. It writes no state; `SEND` is what transmits it (R38, R181; log entry 8). -/
def execLitFrmTooLong (s : State) : Host.Outcome State Fault Refusal :=
  .next (s.setRet (.text (litFrmTooLongFrame s.cfg)))

end Sys2Proof.Machine
end

