-- ==== Sys2Proof/Machine/Errors.lean ====
section
/-! DEFINITION. The three error replies that allocate a sequence number (spec/60_exceptions.md rules R280 to R282). -/

namespace Sys2Proof.Machine

/-- `ERR.FORMAT` (R280). -/
def execErrFormat (s : State) : Host.Outcome State Fault Refusal :=
  .next (takeError .format none s)

/-- `ERR.CHK` (R281). -/
def execErrChk (s : State) : Host.Outcome State Fault Refusal :=
  .next (takeError .checksumMismatch none s)

/-- `ERR.RX_OVERFLOW` (R282). -/
def execErrRxOverflow (s : State) : Host.Outcome State Fault Refusal :=
  .next (takeError .bufferOverflow none s)

end Sys2Proof.Machine
end

