-- ==== Sys2Proof/Machine/ResetEvent.lean ====
section
/-! DEFINITION. The reset event (spec/70_reset_and_hazards.md rule R320). -/

namespace Sys2Proof.Machine

/-- Every register to its reset value (R320). The configuration is no operand and stays; the `TX` log gains nothing; the
environment's queue is not the hardware's (log entries 1, 2, 9). -/
def resetRegisters (s : State) : State where
  receiving := false
  rxBuf := []
  lastHostSeq := seqNone
  txSeq := s.cfg.txSeqInit
  lastFireHb := 0
  lastFireArr := 0
  lastFireDl := 0
  routeId := s.cfg.routeInit
  etaMinutes := s.cfg.etaInit
  tx := s.tx
  cfg := s.cfg
  pending := s.pending
  ret := s.ret

/-- `RESET` (R320). -/
def execReset (s : State) : Host.Outcome State Fault Refusal :=
  .next (resetRegisters s)

end Sys2Proof.Machine
end

