-- ==== Sys2Proof/Machine/Telemetry.lean ====
section
/-! DEFINITION. The periodic timer comparator and telemetry emission (spec/45_telemetry.md rules R250 to R255). -/

namespace Sys2Proof.Machine

/-- `TLM.HB` (R253). -/
def tlmHb (s : State) : State :=
  sendAuto txtHb txtOk s

/-- `TLM.ARR` (R254). -/
def tlmArr (s : State) : State :=
  sendAuto txtArr (arrivalData s.cfg s.routeId s.etaMinutes) s

/-- `TLM.DL` (R255). -/
def tlmDl (s : State) : State :=
  sendAuto txtDl txtFiveMin s

/-- The first line of `POLL` (R250). -/
def pollHb (now : U32) (s : State) : State :=
  if timerDue now s.lastFireHb tHb then tlmHb (s.setLastFireHb now) else s

/-- The second line of `POLL` (R250). -/
def pollArr (now : U32) (s : State) : State :=
  if timerDue now s.lastFireArr tArr then tlmArr (s.setLastFireArr now) else s

/-- The third line of `POLL` (R250). -/
def pollDl (now : U32) (s : State) : State :=
  if timerDue now s.lastFireDl tDl then tlmDl (s.setLastFireDl now) else s

/-- `POLL(now)`: the three streams in order, with one reading of the clock (R250). -/
def execPoll (now : U32) (s : State) : Host.Outcome State Fault Refusal :=
  .next (pollDl now (pollArr now (pollHb now s)))

/-- `TMR.DUE(now, last, interval)` (R251). -/
def execTmrDue (now last interval : U32) (s : State) : Host.Outcome State Fault Refusal :=
  .next (s.setRet (.bool (timerDue now last interval)))

/-- `TXSEQ.ALLOC` (R252). -/
def execTxseqAlloc (s : State) : Host.Outcome State Fault Refusal :=
  let v := allocSeq s
  .next (v.2.setRet (.byte v.1))

/-- `TLM.HB` (R253). -/
def execTlmHb (s : State) : Host.Outcome State Fault Refusal :=
  .next (tlmHb s)

/-- `TLM.ARR` (R254). -/
def execTlmArr (s : State) : Host.Outcome State Fault Refusal :=
  .next (tlmArr s)

/-- `TLM.DL` (R255). -/
def execTlmDl (s : State) : Host.Outcome State Fault Refusal :=
  .next (tlmDl s)

end Sys2Proof.Machine
end

