-- ==== Sys2Proof/Machine/Dispatch.lean ====
section
/-! DEFINITION. The meaning of every row of spec/opcode_table.json: one arm per constructor. -/

namespace Sys2Proof.Machine

def exec (i : Instr) (s : State) : Host.Outcome State Fault Refusal :=
  match i with
  | .rxStx => Sys2Proof.Machine.execRxStx s
  | .rxEtx => Sys2Proof.Machine.execRxEtx s
  | .rxIdle b => Sys2Proof.Machine.execRxIdle b s
  | .rxData b => Sys2Proof.Machine.execRxData b s
  | .rxOvf b => Sys2Proof.Machine.execRxOvf b s
  | .rxbyte b => Sys2Proof.Machine.execRxbyte b s
  | .frameHandle body => Sys2Proof.Machine.execFrameHandle body s
  | .decode body => Sys2Proof.Machine.execDecode body s
  | .xor8 t => Sys2Proof.Machine.execXor8 t s
  | .chkGen payload => Sys2Proof.Machine.execChkGen payload s
  | .chkVal input field => Sys2Proof.Machine.execChkVal input field s
  | .encode type node seq data => Sys2Proof.Machine.execEncode type node seq data s
  | .send type seq data => Sys2Proof.Machine.execSend type seq data s
  | .litTxTooLong => Sys2Proof.Machine.execLitTxTooLong s
  | .litFrmTooLong => Sys2Proof.Machine.execLitFrmTooLong s
  | .dedupAccept seq => Sys2Proof.Machine.execDedupAccept seq s
  | .cmdPing node seq => Sys2Proof.Machine.execCmdPing node seq s
  | .cmdStatus node seq => Sys2Proof.Machine.execCmdStatus node seq s
  | .cmdSetroute node seq value => Sys2Proof.Machine.execCmdSetroute node seq value s
  | .cmdSeteta node seq value => Sys2Proof.Machine.execCmdSeteta node seq value s
  | .cmdUnknown node seq data => Sys2Proof.Machine.execCmdUnknown node seq data s
  | .typeOther type node seq data => Sys2Proof.Machine.execTypeOther type node seq data s
  | .errFormat => Sys2Proof.Machine.execErrFormat s
  | .errChk => Sys2Proof.Machine.execErrChk s
  | .errRxOverflow => Sys2Proof.Machine.execErrRxOverflow s
  | .poll now => Sys2Proof.Machine.execPoll now s
  | .tmrDue now last interval => Sys2Proof.Machine.execTmrDue now last interval s
  | .txseqAlloc => Sys2Proof.Machine.execTxseqAlloc s
  | .tlmHb => Sys2Proof.Machine.execTlmHb s
  | .tlmArr => Sys2Proof.Machine.execTlmArr s
  | .tlmDl => Sys2Proof.Machine.execTlmDl s
  | .reset => Sys2Proof.Machine.execReset s

end Sys2Proof.Machine
end

