-- ==== Sys2Proof/Machine/Step.lean ====
section
/-! DEFINITION. One step: the next event of the environment, decoded and executed to completion (spec/00_scope.md rule R10). -/

namespace Sys2Proof.Machine

/-- One step. With no event pending the hardware holds its state (R305). Otherwise the event leaves the queue, the decoder
reads its row in the present state, and the row's meaning runs to completion (R10, R130). -/
def step (s : State) : Host.Outcome State Fault Refusal :=
  match s.pending with
  | [] => .next s
  | e :: rest =>
    match decode s.ctx (eventCode e) with
    | .ok i => endEvent (exec i (s.setPending rest))
    | .error r => .refused (.undecodable r)

/-- The state in which the very next step runs the instruction of a table word (log entry 14). -/
def State.withFetchWord (s : State) (nbits w : Nat) : State :=
  placeWord s nbits w

end Sys2Proof.Machine
end

