-- ==== Sys2Proof/Safety.lean ====
section
/-! DEFINITION. The terms in which claims about the machine are made: what a node puts on the wire, what a safe state is, and
which events of a run did what. They are written from the spec's rules, apart from the meanings. -/

namespace Sys2Proof.Machine

/-- The checksum input of a frame of this node, field by field (R90, R154). -/
def wirePayload (c : Config) (type : Text) (seq : Byte) (data : Text) : Text :=
  if c.seqAware = true then type ++ [FS] ++ c.nodeId ++ [FS] ++ decSeq seq ++ [FS] ++ data
  else type ++ [FS] ++ c.nodeId ++ [FS] ++ data

/-- A framed output, byte by byte, around its checksum input (R90). -/
def wireFrame (p : Text) : Text :=
  [STX] ++ p ++ [FS] ++ hex2 (xor8 p) ++ [ETX]

/-- A literal error frame, whose `SEQ` text is `0` (R181). -/
def wireLiteral (c : Config) (reason : Text) : Text :=
  if c.seqAware = true then wireFrame (txtErr ++ [FS] ++ c.nodeId ++ [FS] ++ [0x30] ++ [FS] ++ reason)
  else wireFrame (txtErr ++ [FS] ++ c.nodeId ++ [FS] ++ reason)

/-- The one frame that `SEND(type, seq, data)` hands to `Transmit` (R178, R180). -/
def sentFrame (c : Config) (type : Text) (seq : Byte) (data : Text) : Text :=
  if c.payloadCap < (wirePayload c type seq data).length then wireLiteral c txtTxTooLong
  else if c.txCap < (wirePayload c type seq data).length + 5 then wireLiteral c txtFrmTooLong
  else wireFrame (wirePayload c type seq data)

/-- The assembler's part of the invariant (R24): idle means empty, never more than `RX_CAP` bytes, no delimiter stored. -/
def State.assemblerOk (s : State) : Prop :=
  (s.receiving = false → s.rxBuf = []) ∧ s.rxBuf.length ≤ s.cfg.rxCap ∧ noDelims s.rxBuf = true

/-- The watermark holds a number `0..255` or `NONE = 0x100` (R25), and `NONE` for ever in the legacy form (R214). -/
def State.watermarkOk (s : State) : Prop :=
  s.lastHostSeq.toNat ≤ 0x100 ∧ (s.cfg.seqAware = false → s.lastHostSeq = seqNone)

/-- `route_id` has at most `ROUTE_CAP` bytes, and no frame delimiter among them (R29). -/
def State.routeOk (s : State) : Prop :=
  s.routeId.length ≤ s.cfg.routeCap ∧ noDelims s.routeId = true

/-- The types a node transmits (R105). -/
def nodeTypes : List Text :=
  [txtAck, txtStatus, txtErr, txtHb, txtArr, txtDl]

/-- A sound frame of this node: one of its types, its own `NODE_ID`, a checksum that fits, and no delimiter inside (R105, R185). -/
def soundFrame (c : Config) (f : Text) : Prop :=
  ∃ type seq data, type ∈ nodeTypes ∧ f = wireFrame (wirePayload c type seq data) ∧
    noDelims (wirePayload c type seq data) = true

/-- Every frame sent so far is sound. -/
def State.logOk (s : State) : Prop :=
  ∀ f ∈ s.tx, soundFrame s.cfg f

/-- What holds of every reachable state of a well-formed configuration. -/
def State.inv (s : State) : Prop :=
  s.assemblerOk ∧ s.watermarkOk ∧ s.routeOk ∧ s.logOk ∧ s.ret = .none

/-- A run of steps from `s` to `t`, none of which stops. -/
def runsTo (n : Nat) (s t : State) : Prop :=
  Sys2Proof.core.run n s = .next t

/-- `n` invocations of `TXSEQ.ALLOC`: the values returned, in order, and the state after them; `none` where one stops. -/
def allocTimes : Nat → State → Option (List Byte × State)
  | 0, s => some ([], s)
  | n + 1, s =>
    match exec .txseqAlloc s with
    | .next t =>
      match t.ret, allocTimes n t with
      | .byte v, some (vs, u) => some (v :: vs, u)
      | _, _ => none
    | _ => none

/-- The milliseconds from `last` to `now` on a clock that wraps at `2^32` (R251). -/
def elapsed (now last : U32) : Nat :=
  (now.toNat + 2 ^ 32 - last.toNat) % 2 ^ 32

/-- The number that a reply to a message with `seq` carries: the host's, where there is one (R228). In the legacy form there is
none and none is sent (R220). -/
def echoes (seq : Option Byte) (q : Byte) : Prop :=
  ∀ h, seq = some h → q = h

/-- The value of a hexadecimal digit in either case (R99). -/
def hexDigitValue (b : Byte) : Option Nat :=
  if 0x30 ≤ b.toNat ∧ b.toNat ≤ 0x39 then some (b.toNat - 0x30)
  else if 0x41 ≤ b.toNat ∧ b.toNat ≤ 0x46 then some (b.toNat - 0x41 + 10)
  else if 0x61 ≤ b.toNat ∧ b.toNat ≤ 0x66 then some (b.toNat - 0x61 + 10)
  else none

/-- The number that a string of hexadecimal digits writes, every digit with its weight; `none` where a byte is no digit (R99). -/
def hexNumber : Text → Option Nat
  | [] => some 0
  | b :: bs =>
    match hexDigitValue b, hexNumber bs with
    | some d, some n => some (d * 16 ^ bs.length + n)
    | _, _ => none

/-- The character of a hexadecimal digit, in upper case (R98). -/
def upperHex (n : Nat) : Byte :=
  BitVec.ofNat 8 (if n < 10 then 0x30 + n else 0x41 + (n - 10))

/-- The events that deliver a string of bytes. -/
def delivers (bytes : Text) : List Event :=
  bytes.map .rxbyte

end Sys2Proof.Machine
end

