-- ==== Sys2Proof/Certificates/Slice0/Obligations.lean ====
section
/-! DEFINITION. The statements about the machine, for the provers. Each docstring names the rule of spec/ it formalises, or says
what it is derived from. -/

open Sys2Proof Sys2Proof.Machine

/-! The step. -/

/-- With an event pending, a step runs the instruction the decoder reads from it, on the state with the event taken off the queue,
and keeps no returned value. A byte is read as the row that R130 selects, a poll and a reset as themselves. With none pending the
state stands (R10, R305, R31). The queue of pending events is the model's choice (log entry 2), and so is the returned value (log
entry 3). -/
def Obligations.StepRunsTheDecodedEvent : Prop :=
  ∀ s : State,
    (s.pending = [] → step s = .next s) ∧
    ∀ e rest, s.pending = e :: rest →
      (∀ i, decode s.ctx (eventCode e) = .ok i →
        step s = match exec i { s with pending := rest } with
          | .next t => .next { t with ret := .none }
          | .fault f => .fault f
          | .refused r => .refused r) ∧
      decode s.ctx (eventCode e) = .ok (match e with
        | .rxbyte b =>
          if b = 0x02 then .rxStx
          else if s.receiving = false then .rxIdle b
          else if b = 0x03 then .rxEtx
          else if s.rxBuf.length < s.cfg.rxCap then .rxData b
          else .rxOvf b
        | .poll now => .poll now
        | .reset => .reset)

/-- No event stops the machine: every step from every state answers a next state (from R271 and R295). -/
def Obligations.EveryStepAnswersANextState : Prop :=
  ∀ s : State, ∃ t, step s = .next t

/-- The invariant of a well-formed configuration is kept by every step: R24 for the assembler, R25 and R214 for the watermark, R29
for `route_id`, R105 and R185 for the frames sent. -/
def Obligations.EveryStepKeepsTheInvariant : Prop :=
  ∀ s t : State, s.cfg.wf = true → s.inv → step s = .next t → t.inv

/-- The invariant holds after reset, in every well-formed configuration and in the reference one (R39). -/
def Obligations.ResetEstablishesTheInvariant : Prop :=
  (∀ c : Config, c.wf = true → (State.resetOf c).inv) ∧ State.reset.cfg.wf = true ∧ State.reset.inv

/-- Every step leaves the configuration as it is, takes the first event off the queue, and only appends to the `TX` log: at most one
frame for a byte, at most three for a poll, none for a reset (R32, R33, R73). That the configuration and the queue are fields of the
state is the model's choice (log entries 1 and 2); that a reset keeps the log, the configuration and the events still pending is its
reading of R320 (log entry 9). -/
def Obligations.StepKeepsConfigurationAndAppendsToTheLog : Prop :=
  ∀ s t : State, step s = .next t →
    t.cfg = s.cfg ∧ t.pending = s.pending.tail ∧
    ∃ sent, t.tx = s.tx ++ sent ∧
      match s.pending with
      | [] => sent = []
      | .rxbyte _ :: _ => sent.length ≤ 1
      | .poll _ :: _ => sent.length ≤ 3
      | .reset :: _ => sent = []

/-! The encoding. -/

/-- Decoding the encoding of a well-formed instruction, in a state that its row admits, gives the instruction back: every row of the
table, every operand. Two of the encodings are the model's choice. An EVENT or FUNC row is a call, a name and its operands, and
`FRAME.HANDLE` is read as such a call (log entry 10). A framed output is read as its `FRAME_OUT` row by its `TYPE` and `DATA`: the
place-holders stand for any value, an arrival is told by its key `route=`, the two literals by their number 0 (log entry 11). -/
def Obligations.DecodeOfEncodeGivesTheInstruction : Prop :=
  ∀ (x : Ctx) (i : Instr), x.cfg.wf = true → i.wf x.cfg = true → i.selectableIn x = true →
    decode x (encode x i) = .ok i

/-- Every byte is decoded, to a well-formed instruction that its state admits and that encodes to that byte: the five byte rows are
exhaustive and exclusive (R130). -/
def Obligations.EveryByteDecodesToOneAdmittedRow : Prop :=
  ∀ (x : Ctx) (b : Byte), ∃ i, decode x (.byte b) = .ok i ∧ i.format = .byte ∧
    i.wf x.cfg = true ∧ i.selectableIn x = true ∧ encode x i = .byte b ∧
    ∀ j, j.format = .byte → j.wf x.cfg = true → j.selectableIn x = true → encode x j = .byte b → j = i

/-- A body that decodes selects its row by `TYPE` and then by `DATA` (R106, R120). -/
def Obligations.BodySelectsItsRow : Prop :=
  ∀ (x : Ctx) (f : Text) (m : Message), decodeBody x.cfg f = .ok m →
    (m.type ≠ txtCmd → decode x (.frameIn f) = .ok (.typeOther m.type m.node m.seq m.data)) ∧
    (m.type = txtCmd →
      (m.data = txtPing → decode x (.frameIn f) = .ok (.cmdPing m.node m.seq)) ∧
      (m.data = txtStatus → decode x (.frameIn f) = .ok (.cmdStatus m.node m.seq)) ∧
      (∀ v, m.data = txtSetroute ++ v → decode x (.frameIn f) = .ok (.cmdSetroute m.node m.seq v)) ∧
      (∀ v, m.data = txtSeteta ++ v → decode x (.frameIn f) = .ok (.cmdSeteta m.node m.seq v)) ∧
      (m.data ≠ txtPing → m.data ≠ txtStatus → ¬ txtSetroute <+: m.data → ¬ txtSeteta <+: m.data →
        decode x (.frameIn f) = .ok (.cmdUnknown m.node m.seq m.data)))

/-- A few words, written out from the table, decode to what they stand for: the two delimiters, a byte of a body, the body of
the source's `PING` scenario, and the heartbeat frame of R253. Two of the readings are the model's choice. A one-byte table word is
read with its row's state set aside, so that `0x03` is `RX.ETX` and `0x0A` is `RX.IDLE`, though `RX.DATA` and `RX.OVF` match those
bytes as well (log entry 14, the first three clauses). A framed output is read as its `FRAME_OUT` row (log entry 11, the last
clause). -/
def Obligations.SampleWordsDecode : Prop :=
  decodeTableWord 8 0x02 = some .rxStx ∧
  decodeTableWord 8 0x03 = some .rxEtx ∧
  decodeTableWord 8 0x0A = some (.rxIdle 0x0A) ∧
  decode { refCtx with receiving := true } (.byte 0x7C) = .ok (.rxData 0x7C) ∧
  decode { refCtx with receiving := true, rxFull := true } (.byte 0x41) = .ok (.rxOvf 0x41) ∧
  decode refCtx (.frameIn [0x43, 0x4D, 0x44, 0x7C, 0x48, 0x4F, 0x53, 0x54, 0x7C, 0x37, 0x7C, 0x50, 0x49, 0x4E, 0x47, 0x7C, 0x31,
    0x31]) = .ok (.cmdPing [0x48, 0x4F, 0x53, 0x54] (some 7)) ∧
  decode refCtx (.frameOut [0x02, 0x48, 0x42, 0x7C, 0x4E, 0x4F, 0x44, 0x45, 0x30, 0x31, 0x7C, 0x30, 0x7C, 0x4F, 0x4B, 0x7C, 0x34,
    0x33, 0x03]) = .ok .tlmHb

/-! The frame assembler. -/

/-- R130: `RXBYTE(b)` is exactly one of the five operations, chosen in this order, and always completes; a completed frame is handed to
`FRAME.HANDLE` inside the same event; the event returns nothing. -/
def Obligations.ByteRunsExactlyOneOperation : Prop :=
  ∀ (s : State) (b : Byte),
    exec (.rxbyte b) s = exec
      (if b = 0x02 then .rxStx
       else if s.receiving = false then .rxIdle b
       else if b = 0x03 then .rxEtx
       else if s.rxBuf.length < s.cfg.rxCap then .rxData b
       else .rxOvf b) s ∧
    (s.receiving = true → b = 0x03 →
      exec (.rxbyte b) s = exec (.frameHandle s.rxBuf) { s with receiving := false, rxBuf := [] }) ∧
    ∃ t, exec (.rxbyte b) s = .next t ∧ t.ret = s.ret

/-- R131: `RX.STX` empties the buffer and starts a frame, whatever the state, and writes nothing else; so does the byte `0x02`. -/
def Obligations.StartDelimiterRestartsTheAssembler : Prop :=
  ∀ s : State,
    exec .rxStx s = .next { s with receiving := true, rxBuf := [] } ∧
    exec (.rxbyte 0x02) s = .next { s with receiving := true, rxBuf := [] } ∧
    ∀ rest, s.pending = .rxbyte 0x02 :: rest →
      step s = .next { s with receiving := true, rxBuf := [], pending := rest, ret := .none }

/-- `RX.ETX` clears the assembler and handles the stored body in the same event, and completes, with at most one frame sent; so
does the byte `0x03` inside a frame (R132). That the row, executed by itself, does so in every state, also outside a frame, where its
state condition fails, is the model's reading (log entry 6). -/
def Obligations.EndDelimiterHandsOverTheBody : Prop :=
  ∀ s : State, ∃ t sent,
    exec .rxEtx s = .next t ∧
    exec (.frameHandle s.rxBuf) { s with receiving := false, rxBuf := [] } = .next t ∧
    t.receiving = false ∧ t.rxBuf = [] ∧ t.tx = s.tx ++ sent ∧ sent.length ≤ 1 ∧
    (s.receiving = true → exec (.rxbyte 0x03) s = .next t)

/-- With spare capacity, `RX.DATA` stores its byte at index `rx_len` and changes nothing else; inside a frame any byte but the two
delimiters does that (R133). That the row, executed by itself, does so outside a frame too, and for a byte that is a delimiter, is the
model's reading (log entry 6). -/
def Obligations.DataByteIsStoredAtTheEnd : Prop :=
  ∀ (s : State) (b : Byte), s.rxBuf.length < s.cfg.rxCap → ∃ t,
    exec (.rxData b) s = .next t ∧
    t = { s with rxBuf := s.rxBuf ++ [b] } ∧
    memByte .rxbuf t s.rxLen = some b ∧ t.rxLen = s.rxLen + 1 ∧
    (∀ a, a ≠ s.rxLen → memByte .rxbuf t a = memByte .rxbuf s a) ∧
    (∀ a, memByte .route t a = memByte .route s a) ∧
    (b ≠ 0x02 → b ≠ 0x03 → s.receiving = true → exec (.rxbyte b) s = .next t)

/-- The model's choice (log entry 5): `RX.DATA` executed on a full buffer, where R61 says that it is not performed, stops by name.
No byte event executes it there. -/
def Obligations.DataByteOnAFullBufferStops : Prop :=
  ∀ (s : State) (b : Byte), s.cfg.rxCap ≤ s.rxBuf.length →
    exec (.rxData b) s = .fault .rxbufIndex ∧ ∃ t, exec (.rxbyte b) s = .next t

/-- `RX.OVF` leaves the frame, loses the stored bytes and the arriving one, allocates one sequence number and transmits one
`ERR RX_OVERFLOW`; so does a data byte that finds the buffer full (R134, R282). That the frame's number comes from `tx_seq` is decision
D18 of the spec (log entry 15). That the row, executed by itself, does so in every state, also where its state condition fails, is the
model's reading (log entry 6). -/
def Obligations.OverflowResetsAndReports : Prop :=
  ∀ (s : State) (b : Byte), ∃ t,
    exec (.rxOvf b) s = .next t ∧
    t = { s with receiving := false, rxBuf := [], txSeq := s.txSeq + 1,
                 tx := s.tx ++ [sentFrame s.cfg txtErr s.txSeq txtRxOverflow] } ∧
    (b ≠ 0x02 → b ≠ 0x03 → s.receiving = true → s.rxBuf.length = s.cfg.rxCap → exec (.rxbyte b) s = .next t)

/-- `RX.IDLE` changes nothing, and outside a frame every byte but the start delimiter is that (R135). That the row, executed by itself,
changes nothing inside a frame too, and for the byte `0x02`, where its condition fails, is the model's reading (log entry 6). -/
def Obligations.ByteOutsideAFrameIsDropped : Prop :=
  ∀ (s : State) (b : Byte),
    exec (.rxIdle b) s = .next s ∧ (s.receiving = false → b ≠ 0x02 → exec (.rxbyte b) s = .next s)

/-- A start delimiter, at most `RX_CAP` bytes that are no delimiters, and an end delimiter: after them `FRAME.HANDLE` has run once, at
the end delimiter, on exactly those bytes, whatever was received before (from R138 items 1 and 2). -/
def Obligations.FrameIsDeliveredWhole : Prop :=
  ∀ (s : State) (d : Text) (rest : List Event),
    s.pending = .rxbyte 0x02 :: (delivers d ++ .rxbyte 0x03 :: rest) → noDelims d = true → d.length ≤ s.cfg.rxCap →
    ∃ t, exec (.frameHandle d) { s with receiving := false, rxBuf := [], pending := rest } = .next t ∧
      runsTo (d.length + 2) s { t with ret := .none }

/-- A frame longer than the buffer is reported once, however long it is, and the assembler is idle after it (from R138 item 3). That
the report's number comes from `tx_seq` is decision D18 of the spec (R282, log entry 15). -/
def Obligations.OversizedFrameIsReportedOnce : Prop :=
  ∀ (s : State) (d : Text) (rest : List Event),
    s.pending = .rxbyte 0x02 :: (delivers d ++ .rxbyte 0x03 :: rest) → noDelims d = true → s.cfg.rxCap < d.length →
    runsTo (d.length + 2) s
      { s with receiving := false, rxBuf := [], txSeq := s.txSeq + 1, pending := rest, ret := .none,
               tx := s.tx ++ [sentFrame s.cfg txtErr s.txSeq txtRxOverflow] }

/-- Outside a frame, bytes among which there is no start delimiter leave the whole state as it is (from R138 item 4). -/
def Obligations.NoiseOutsideFramesChangesNothing : Prop :=
  ∀ (s : State) (d : Text) (rest : List Event),
    s.pending = delivers d ++ rest → s.receiving = false → s.ret = .none → 0x02 ∉ d →
    runsTo d.length s { s with pending := rest }

/-! The checksum. -/

/-- R150: `XOR8` starts from 0 and takes in one byte after another by XOR; it writes no state. -/
def Obligations.Xor8TakesInEveryByte : Prop :=
  ∃ f : Text → Byte, f [] = 0 ∧ (∀ t b, f (t ++ [b]) = f t ^^^ b) ∧
    ∀ (t : Text) (s : State), exec (.xor8 t) s = .next { s with ret := .byte (f t) }

/-- The laws of `xor8` that R151 derives: joining, order, self-inverse, and the change of one byte. The source's sentence that the
order matters is an error of the document (spec/90_conflicts.md C1). -/
def Obligations.Xor8Laws : Prop :=
  (∀ s t : Text, xor8 (s ++ t) = xor8 s ^^^ xor8 t) ∧
  (∀ s t : Text, s.Perm t → xor8 s = xor8 t) ∧
  (∀ s : Text, xor8 (s ++ s) = 0) ∧
  (∀ (u v : Text) (x y : Byte), xor8 (u ++ y :: v) = xor8 (u ++ x :: v) ^^^ (x ^^^ y)) ∧
  (∀ (u v : Text) (x y : Byte), x ≠ y → xor8 (u ++ y :: v) ≠ xor8 (u ++ x :: v))

/-- R152: `CHK.GEN` is the checksum in two upper-case hexadecimal digits, high nibble first. -/
def Obligations.ChecksumTextIsTwoUpperCaseDigits : Prop :=
  ∀ (p : Text) (s : State),
    exec (.chkGen p) s =
      .next { s with ret := .text [upperHex ((xor8 p).toNat / 16), upperHex ((xor8 p).toNat % 16)] }

/-- `CHK.VAL` compares the checksum with the number the field writes, modulo 256, digits of either case and any length; a field that
is no number counts as 0 (R153, with R99 as decision D5 of the spec has it). -/
def Obligations.ChecksumFieldIsComparedAsANumber : Prop :=
  ∀ (input field : Text) (s : State), ∃ v,
    exec (.chkVal input field) s = .next { s with ret := .bool v } ∧
    (v = true ↔ (xor8 input).toNat = (match hexNumber field with | some n => n % 256 | none => 0))

/-- The checksum that the node generates validates (R156, derived from R99, R152, R153). -/
def Obligations.GeneratedChecksumValidates : Prop :=
  ∀ (p : Text) (s : State), ∃ f,
    exec (.chkGen p) s = .next { s with ret := .text f } ∧
    exec (.chkVal p f) s = .next { s with ret := .bool true }

/-! The codec. -/

/-- R170: `DECODE`, case by case. No delimiter: `Format`. Else the checksum field is what follows the last one; a mismatch comes
first; then too few delimiters in the checksum input are `Format`, and enough of them give the fields. The cases are exhaustive, and
nothing but the returned value changes. -/
def Obligations.DecodeByCases : Prop :=
  ∀ (s : State) (f : Text),
    (FS ∉ f → exec (.decode f) s = .next { s with ret := .decodeError .format }) ∧
    ∀ input field, f = input ++ FS :: field → FS ∉ field →
      (xor8 input ≠ hexval field → exec (.decode f) s = .next { s with ret := .decodeError .checksumMismatch }) ∧
      (xor8 input = hexval field →
        (input.count FS < (if s.cfg.seqAware = true then 3 else 2) →
          exec (.decode f) s = .next { s with ret := .decodeError .format }) ∧
        (∀ type node rest, input = type ++ [FS] ++ node ++ [FS] ++ rest → FS ∉ type → FS ∉ node →
          (s.cfg.seqAware = false →
            exec (.decode f) s = .next { s with ret := .message ⟨type, node, none, rest⟩ }) ∧
          (s.cfg.seqAware = true → ∀ seqText data, rest = seqText ++ [FS] ++ data → FS ∉ seqText →
            exec (.decode f) s = .next { s with ret := .message ⟨type, node, some (seqOfText seqText), data⟩ })))

/-- R172: a wrong checksum is `ChecksumMismatch` however many fields there are. -/
def Obligations.MismatchComesBeforeTheFieldCount : Prop :=
  ∀ (s : State) (input field : Text), FS ∉ field → xor8 input ≠ hexval field →
    exec (.decode (input ++ FS :: field)) s = .next { s with ret := .decodeError .checksumMismatch } ∧
    exec (.frameHandle (input ++ FS :: field)) s = exec .errChk s

/-- R176: `ENCODE` joins the fields, tests the payload and then the frame, and wraps the payload with its checksum; nothing but the
returned value changes. -/
def Obligations.EncodeByCases : Prop :=
  ∀ (s : State) (type node : Text) (seq : Byte) (data p : Text),
    p = (if s.cfg.seqAware = true then type ++ [FS] ++ node ++ [FS] ++ decSeq seq ++ [FS] ++ data
         else type ++ [FS] ++ node ++ [FS] ++ data) →
    exec (.encode type node seq data) s =
      if s.cfg.payloadCap < p.length then .next { s with ret := .encodeError .payloadTooLarge }
      else if s.cfg.txCap < p.length + 5 then .next { s with ret := .encodeError .frameTooLarge }
      else .next { s with ret := .text ([STX] ++ p ++ [FS] ++ hex2 (xor8 p) ++ [ETX]) }

/-- `SEND` makes exactly one `Transmit`: the frame `ENCODE` gives for this node, or the literal frame of the error it raises; it
writes nothing else (R180; which literal goes with which error is decision D21 of the spec, log entry 16). The literal is named as what
its row returns: that `LIT.TX_TOO_LONG` and `LIT.FRM_TOO_LONG`, executed by themselves, return their constant and send nothing is the
model's reading of R181 and R38 (log entry 8). -/
def Obligations.SendTransmitsOneFrameOrItsLiteral : Prop :=
  ∀ (s : State) (type : Text) (seq : Byte) (data : Text), ∃ r f,
    exec (.encode type s.cfg.nodeId seq data) s = .next { s with ret := r } ∧
    exec (.send type seq data) s = .next { s with tx := s.tx ++ [f] } ∧
    (r = .text f ∨
      (r = .encodeError .payloadTooLarge ∧ exec .litTxTooLong s = .next { s with ret := .text f }) ∨
      (r = .encodeError .frameTooLarge ∧ exec .litFrmTooLong s = .next { s with ret := .text f }))

/-- The two literal frames (R181, whose bytes are decisions D20 and D21 of the spec): an `ERR` frame of this node with the `SEQ` text
`0`, its checksum, and the lengths R181 gives; the constants are returned and nothing is transmitted (log entry 8). -/
def Obligations.LiteralErrorFrames : Prop :=
  ∀ s : State, ∃ f g,
    exec .litTxTooLong s = .next { s with ret := .text f } ∧ f = wireLiteral s.cfg txtTxTooLong ∧
    exec .litFrmTooLong s = .next { s with ret := .text g } ∧ g = wireLiteral s.cfg txtFrmTooLong ∧
    f.length = s.cfg.nodeId.length + (if s.cfg.seqAware = true then 23 else 21) ∧
    g.length = s.cfg.nodeId.length + (if s.cfg.seqAware = true then 24 else 22) ∧
    (s.cfg.wf = true → f.length ≤ s.cfg.txCap ∧ g.length ≤ s.cfg.txCap)

/-- What `ENCODE` frames, `DECODE` reads back: all four fields, `SEQ` being absent in the legacy form, `DATA` with any delimiters in it
(R184, derived). -/
def Obligations.DecodeReadsBackWhatEncodeFrames : Prop :=
  ∀ (s : State) (type node : Text) (seq : Byte) (data f : Text), FS ∉ type → FS ∉ node →
    exec (.encode type node seq data) s = .next { s with ret := .text f } →
    ∃ body, f = [STX] ++ body ++ [ETX] ∧
      exec (.decode body) s =
        .next { s with ret := .message ⟨type, node, if s.cfg.seqAware = true then some seq else none, data⟩ }

/-! The deduplication register. -/

/-- R210: a number equal to the register is rejected and nothing is written; any other is stored and accepted. The register is the only
one written. -/
def Obligations.DedupComparesAndStores : Prop :=
  ∀ (s : State) (q : Byte),
    exec (.dedupAccept q) s = .next (if s.lastHostSeq.toNat = q.toNat then { s with ret := .bool false }
      else { s with lastHostSeq := BitVec.ofNat 9 q.toNat, ret := .bool true })

/-- Of two command frames in a row with one sequence number the second changes nothing at all, and a third with another number draws
exactly one reply (R216, derived from R210 to R212). -/
def Obligations.RepeatedCommandIsDroppedAndTheNextAnswered : Prop :=
  ∀ (s : State) (f g h : Text) (mf mg mh : Message) (q r : Byte), s.cfg.seqAware = true →
    decodeBody s.cfg f = .ok mf → mf.type = txtCmd → mf.seq = some q →
    decodeBody s.cfg g = .ok mg → mg.type = txtCmd → mg.seq = some q →
    decodeBody s.cfg h = .ok mh → mh.type = txtCmd → mh.seq = some r → r ≠ q →
    ∃ t u, exec (.frameHandle f) s = .next t ∧ t.tx.length ≤ s.tx.length + 1 ∧
      exec (.frameHandle g) t = .next t ∧
      exec (.frameHandle h) t = .next u ∧ u.tx.length = t.tx.length + 1 ∧ u.lastHostSeq.toNat = r.toNat

/-- The watermark is written by nothing but a reset, which stores `NONE`, and an accepted command, which stores its number: a
sequence-aware node, a completed frame that decodes, of type `CMD`, with a number other than the register's (from R211, R214, R215). -/
def Obligations.WatermarkChangesOnlyOnAcceptanceOrReset : Prop :=
  ∀ s t : State, step s = .next t → t.lastHostSeq ≠ s.lastHostSeq →
    (∃ rest, s.pending = .reset :: rest ∧ t.lastHostSeq.toNat = 0x100) ∨
    (∃ rest m q, s.pending = .rxbyte 0x03 :: rest ∧ s.receiving = true ∧ s.cfg.seqAware = true ∧
      decodeBody s.cfg s.rxBuf = .ok m ∧ m.type = txtCmd ∧ m.seq = some q ∧
      s.lastHostSeq.toNat ≠ q.toNat ∧ t.lastHostSeq.toNat = q.toNat)

/-! The dispatcher. -/

/-- R220: the fixed order of a frame's handling. An error of `DECODE` is answered by its error reply. A type other than `CMD` is
`TYPE.OTHER`. A duplicate changes nothing. Any other command is stored in the watermark (when the node is sequence-aware) and then
runs the row its data selects. A decoded message has a number exactly when the node is sequence-aware. At most one frame is sent. -/
def Obligations.FrameHandlingOrder : Prop :=
  ∀ (s : State) (f : Text),
    (∃ t sent, exec (.frameHandle f) s = .next t ∧ t.tx = s.tx ++ sent ∧ sent.length ≤ 1) ∧
    (exec (.decode f) s = .next { s with ret := .decodeError .format } → exec (.frameHandle f) s = exec .errFormat s) ∧
    (exec (.decode f) s = .next { s with ret := .decodeError .checksumMismatch } →
      exec (.frameHandle f) s = exec .errChk s) ∧
    ∀ m, exec (.decode f) s = .next { s with ret := .message m } →
      m.seq.isSome = s.cfg.seqAware ∧
      (m.type ≠ txtCmd → exec (.frameHandle f) s = exec (.typeOther m.type m.node m.seq m.data) s) ∧
      (m.type = txtCmd →
        (∀ q, m.seq = some q → s.lastHostSeq.toNat = q.toNat → exec (.frameHandle f) s = .next s) ∧
        ∀ t : State,
          (m.seq = none ∧ t = s ∨
            ∃ q, m.seq = some q ∧ s.lastHostSeq.toNat ≠ q.toNat ∧ t = { s with lastHostSeq := BitVec.ofNat 9 q.toNat }) →
          (m.data = txtPing → exec (.frameHandle f) s = exec (.cmdPing m.node m.seq) t) ∧
          (m.data = txtStatus → exec (.frameHandle f) s = exec (.cmdStatus m.node m.seq) t) ∧
          (∀ v, m.data = txtSetroute ++ v → exec (.frameHandle f) s = exec (.cmdSetroute m.node m.seq v) t) ∧
          (∀ v, m.data = txtSeteta ++ v → exec (.frameHandle f) s = exec (.cmdSeteta m.node m.seq v) t) ∧
          (m.data ≠ txtPing → m.data ≠ txtStatus → ¬ txtSetroute <+: m.data → ¬ txtSeteta <+: m.data →
            exec (.frameHandle f) s = exec (.cmdUnknown m.node m.seq m.data) t))

/-- Handling a frame completes and draws at most one transmitted frame; it draws none exactly for a duplicate command and for a
non-command type that is not answered (R229, derived). -/
def Obligations.FrameDrawsOneReplyOrNone : Prop :=
  ∀ (s : State) (f : Text), ∃ t sent,
    exec (.frameHandle f) s = .next t ∧ t.tx = s.tx ++ sent ∧ sent.length ≤ 1 ∧
    (sent = [] ↔ ∃ m, decodeBody s.cfg f = .ok m ∧
      (m.type ≠ txtCmd ∧ s.cfg.unknownTypeReply = false ∨
        m.type = txtCmd ∧ ∃ q, m.seq = some q ∧ s.lastHostSeq.toNat = q.toNat))

/-- R232: two frames that differ in nothing but the `NODE` text (and the checksum it makes) have the same effect, and so have the rows
they select. -/
def Obligations.InboundNodeIsIgnored : Prop :=
  ∀ (s : State) (f g node₁ node₂ type data : Text) (seq : Option Byte),
    decodeBody s.cfg f = .ok ⟨type, node₁, seq, data⟩ → decodeBody s.cfg g = .ok ⟨type, node₂, seq, data⟩ →
    exec (.frameHandle f) s = exec (.frameHandle g) s ∧
    ∀ i j, decode s.ctx (.frameIn f) = .ok i → decode s.ctx (.frameIn g) = .ok j → exec i s = exec j s

/-- Apart from a reset, Device State changes only at the end of a frame that passes the checksum, the type test and the duplicate test,
and then by `SETROUTE=` or `SETETA=` alone, inside that one event (R230). The new values are those of R224 and R225: that the first
`ROUTE_CAP` bytes are kept is decision D26 of the spec (log entry 21), the number format and its width decision D14 (log entries 18
and 22). -/
def Obligations.DeviceStateChangesOnlyByItsCommands : Prop :=
  ∀ s t : State, step s = .next t → t.routeId ≠ s.routeId ∨ t.etaMinutes ≠ s.etaMinutes →
    (∃ rest, s.pending = .reset :: rest) ∨
    (∃ rest m, s.pending = .rxbyte 0x03 :: rest ∧ s.receiving = true ∧ decodeBody s.cfg s.rxBuf = .ok m ∧
      m.type = txtCmd ∧ (∀ q, m.seq = some q → s.lastHostSeq.toNat ≠ q.toNat) ∧
      ((t.etaMinutes = s.etaMinutes ∧ ∃ v, m.data = txtSetroute ++ v ∧ t.routeId = v.take s.cfg.routeCap) ∨
        (t.routeId = s.routeId ∧ ∃ v, m.data = txtSeteta ++ v ∧ t.etaMinutes = BitVec.ofInt 32 (parseInt v))))

/-- R222: `CMD.PING` answers `ACK` / `PONG` with the host's number and writes nothing else. Its row is a command whose whole data is
`PING`. -/
def Obligations.PingAnswersPong : Prop :=
  (∀ (s : State) (node : Text) (seq : Option Byte), ∃ q, echoes seq q ∧
    exec (.cmdPing node seq) s = .next { s with tx := s.tx ++ [sentFrame s.cfg txtAck q txtPong] }) ∧
  ∀ (x : Ctx) (f node : Text) (seq : Option Byte),
    decode x (.frameIn f) = .ok (.cmdPing node seq) ↔ decodeBody x.cfg f = .ok ⟨txtCmd, node, seq, txtPing⟩

/-- R223: `CMD.STATUS` answers a `STATUS` frame with the node, the route and the estimate, and writes nothing else. Its row is a
command whose whole data is `STATUS`. -/
def Obligations.StatusReportsDeviceState : Prop :=
  (∀ (s : State) (node : Text) (seq : Option Byte), ∃ q, echoes seq q ∧
    exec (.cmdStatus node seq) s = .next { s with tx := s.tx ++ [sentFrame s.cfg txtStatus q
      (txtNodeEq ++ s.cfg.nodeId ++ txtCommaRouteEq ++ s.routeId ++ txtCommaEtaEq ++ dec s.etaMinutes.toInt)] }) ∧
  ∀ (x : Ctx) (f node : Text) (seq : Option Byte),
    decode x (.frameIn f) = .ok (.cmdStatus node seq) ↔ decodeBody x.cfg f = .ok ⟨txtCmd, node, seq, txtStatus⟩

/-- `CMD.SETROUTE` stores the first `ROUTE_CAP` bytes of its value, replacing the whole string, and then answers `ACK` / `ROUTE_SET`;
nothing else is written (R224, whose kept end is decision D26 of the spec). -/
def Obligations.SetRouteStoresTheValue : Prop :=
  ∀ (s : State) (node : Text) (seq : Option Byte) (value : Text), ∃ q t, echoes seq q ∧
    exec (.cmdSetroute node seq value) s = .next t ∧
    t = { s with routeId := value.take s.cfg.routeCap, tx := s.tx ++ [sentFrame s.cfg txtAck q txtRouteSet] } ∧
    (∀ a, memByte .route t a = if a < s.cfg.routeCap then value[a]? else none) ∧
    (∀ a, memByte .rxbuf t a = memByte .rxbuf s a)

/-- `CMD.SETETA` stores the number its value begins with, wrapped to 32 bits, and then answers `ACK` / `ETA_SET`; nothing else is
written (R225, whose number format is decision D14 of the spec). -/
def Obligations.SetEtaStoresTheWrappedNumber : Prop :=
  ∀ (s : State) (node : Text) (seq : Option Byte) (value : Text), ∃ q v, echoes seq q ∧
    exec (.cmdSeteta node seq value) s =
      .next { s with etaMinutes := v, tx := s.tx ++ [sentFrame s.cfg txtAck q txtEtaSet] } ∧
    (v.toNat : Int) = parseInt value % 2 ^ 32

/-- A number in the range of `eta_minutes`, written in decimal and followed by anything that is no digit, is stored, and a `STATUS`
right after it reports that number; text that begins with neither a digit nor a sign stores 0 (X8 of spec/95_test_vectors.md; R100,
R101, R225 by decisions D14 and D15 of the spec). -/
def Obligations.SetEtaThenStatusShowsTheNumber : Prop :=
  (∀ (s : State) (node₁ node₂ tail : Text) (q₁ q₂ : Byte) (n : Int), -2 ^ 31 ≤ n → n < 2 ^ 31 →
    (∀ b rest, tail = b :: rest → isDigit b = false) →
    ∃ t, exec (.cmdSeteta node₁ (some q₁) (dec n ++ tail)) s = .next t ∧ t.etaMinutes.toInt = n ∧
      exec (.cmdStatus node₂ (some q₂)) t = .next { t with tx := s.tx ++
        [sentFrame s.cfg txtAck q₁ txtEtaSet,
         sentFrame s.cfg txtStatus q₂
          (txtNodeEq ++ s.cfg.nodeId ++ txtCommaRouteEq ++ s.routeId ++ txtCommaEtaEq ++ dec n)] }) ∧
  (∀ (s : State) (node value : Text) (seq : Option Byte),
    (∀ b rest, value = b :: rest → isDigit b = false ∧ b ≠ 0x2D ∧ b ≠ 0x2B) →
    ∃ t, exec (.cmdSeteta node seq value) s = .next t ∧ t.etaMinutes = 0)

/-- R226: `CMD.UNKNOWN` answers `ERR` / `UNKNOWN_CMD` with the host's number and writes nothing else. Its row is a command whose data
matches none of the four patterns. -/
def Obligations.UnknownCommandIsReported : Prop :=
  (∀ (s : State) (node data : Text) (seq : Option Byte), ∃ q, echoes seq q ∧
    exec (.cmdUnknown node seq data) s = .next { s with tx := s.tx ++ [sentFrame s.cfg txtErr q txtUnknownCmd] }) ∧
  ∀ (x : Ctx) (f node data : Text) (seq : Option Byte),
    decode x (.frameIn f) = .ok (.cmdUnknown node seq data) ↔
      decodeBody x.cfg f = .ok ⟨txtCmd, node, seq, data⟩ ∧ data ≠ txtPing ∧ data ≠ txtStatus ∧
        ¬ txtSetroute <+: data ∧ ¬ txtSeteta <+: data

/-- `TYPE.OTHER` does nothing where `UNKNOWN_TYPE_REPLY` is `false`, and answers `ERR` / `UNKNOWN_TYPE` with the message's number where
it is `true`; it writes no register (R227; the policy is decision D4 of the spec, the number D19). -/
def Obligations.OtherTypeIsIgnoredOrReported : Prop :=
  ∀ (s : State) (type node data : Text) (seq : Option Byte),
    (s.cfg.unknownTypeReply = false → exec (.typeOther type node seq data) s = .next s) ∧
    (s.cfg.unknownTypeReply = true → ∃ q, echoes seq q ∧
      exec (.typeOther type node seq data) s =
        .next { s with tx := s.tx ++ [sentFrame s.cfg txtErr q txtUnknownType] })

/-! The error replies. -/

/-- The three error replies that carry an allocated number: the counter advances by one and one `ERR` frame goes out; nothing else
changes (R280 to R282; that the number comes from `tx_seq` is decision D18 of the spec). -/
def Obligations.ErrorRepliesAllocateAndReport : Prop :=
  ∀ s : State,
    exec .errFormat s =
      .next { s with txSeq := s.txSeq + 1, tx := s.tx ++ [sentFrame s.cfg txtErr s.txSeq txtFormat] } ∧
    exec .errChk s =
      .next { s with txSeq := s.txSeq + 1, tx := s.tx ++ [sentFrame s.cfg txtErr s.txSeq txtChk] } ∧
    exec .errRxOverflow s =
      .next { s with txSeq := s.txSeq + 1, tx := s.tx ++ [sentFrame s.cfg txtErr s.txSeq txtRxOverflow] }

/-- After the byte that ends a frame, and after one that overflows the buffer, the assembler is idle and empty, and a start delimiter
that follows is accepted at once, whatever errors the frame met (from R139 and R293). -/
def Obligations.AssemblerIsReadyAfterEveryFrame : Prop :=
  ∀ (s t : State) (b : Byte) (rest : List Event), s.pending = .rxbyte b :: .rxbyte 0x02 :: rest → s.receiving = true →
    b ≠ 0x02 → b = 0x03 ∨ s.cfg.rxCap ≤ s.rxBuf.length → step s = .next t →
    t.receiving = false ∧ t.rxBuf = [] ∧ step t = .next { t with receiving := true, pending := rest }

/-! The timers. -/

/-- `TMR.DUE` is the unsigned comparison of the elapsed time, taken modulo `2^32`, with the interval (R251; the names of the intervals
are decision D29 of the spec). -/
def Obligations.TimerComparesElapsedTime : Prop :=
  ∀ (s : State) (now last interval : U32),
    exec (.tmrDue now last interval) s = .next { s with ret := .bool (decide (interval.toNat ≤ elapsed now last)) }

/-- `POLL` as a whole: each stream is tested once, in the order heartbeat, arrival, delay, with one reading of the clock; those that are
due take consecutive numbers, send their frames in that order and remember the reading. Nothing else changes (R250, whose order and
single reading are decision D12 of the spec). -/
def Obligations.PollFiresTheDueStreamsInOrder : Prop :=
  ∀ (s : State) (now : U32) (hb arr dl : Bool),
    (hb = true ↔ 5000 ≤ elapsed now s.lastFireHb) → (arr = true ↔ 10000 ≤ elapsed now s.lastFireArr) →
    (dl = true ↔ 30000 ≤ elapsed now s.lastFireDl) →
    exec (.poll now) s = .next { s with
      lastFireHb := if hb then now else s.lastFireHb
      lastFireArr := if arr then now else s.lastFireArr
      lastFireDl := if dl then now else s.lastFireDl
      txSeq := s.txSeq + BitVec.ofNat 8 (hb.toNat + arr.toNat + dl.toNat)
      tx := s.tx ++
        (if hb then [sentFrame s.cfg txtHb s.txSeq txtOk] else []) ++
        (if arr then [sentFrame s.cfg txtArr (s.txSeq + BitVec.ofNat 8 hb.toNat)
          (txtRouteEq ++ s.routeId ++ txtCommaStopEq ++ s.cfg.stopId ++ txtCommaEtaEq ++ dec s.etaMinutes.toInt)] else []) ++
        (if dl then [sentFrame s.cfg txtDl (s.txSeq + BitVec.ofNat 8 (hb.toNat + arr.toNat)) txtFiveMin] else []) }

/-- The first poll after a reset may carry any reading. Below 5000 nothing fires and nothing changes; from 5000 the heartbeat alone,
from 10000 the heartbeat and the arrival, from 30000 all three. A stream that fires sends its frame and remembers the reading; one that
does not keeps its zero; nothing else changes (R323, derived). The zero of the registers is decision D11 of the spec, the counter's
start D9, the order of the frames D12 (log entries 13 and 25). That the reset keeps the log of the frames sent before it is the
model's reading of R320 (log entry 9). -/
def Obligations.FirstPollAfterReset : Prop :=
  ∀ (s : State) (now : U32), ∃ r,
    exec .reset s = .next r ∧ r.tx = s.tx ∧ r.lastFireHb = 0 ∧ r.lastFireArr = 0 ∧ r.lastFireDl = 0 ∧
    ∀ hb arr dl : Text,
      hb = sentFrame s.cfg txtHb s.cfg.txSeqInit txtOk →
      arr = sentFrame s.cfg txtArr (s.cfg.txSeqInit + 1)
        (txtRouteEq ++ s.cfg.routeInit ++ txtCommaStopEq ++ s.cfg.stopId ++ txtCommaEtaEq ++ dec s.cfg.etaInit.toInt) →
      dl = sentFrame s.cfg txtDl (s.cfg.txSeqInit + 2) txtFiveMin →
      exec (.poll now) r = .next (
        if now.toNat < 5000 then r
        else if now.toNat < 10000 then
          { r with lastFireHb := now, txSeq := s.cfg.txSeqInit + 1, tx := s.tx ++ [hb] }
        else if now.toNat < 30000 then
          { r with lastFireHb := now, lastFireArr := now, txSeq := s.cfg.txSeqInit + 2, tx := s.tx ++ [hb, arr] }
        else
          { r with lastFireHb := now, lastFireArr := now, lastFireDl := now, txSeq := s.cfg.txSeqInit + 3,
                   tx := s.tx ++ [hb, arr, dl] })

/-- `TXSEQ.ALLOC` returns the counter and leaves it one higher, modulo 256, and writes nothing else (R252, with decisions D18 and D27
of the spec on who calls it). -/
def Obligations.AllocReturnsThenIncrements : Prop :=
  ∀ s : State,
    exec .txseqAlloc s = .next { s with txSeq := BitVec.ofNat 8 ((s.txSeq.toNat + 1) % 256), ret := .byte s.txSeq }

/-- 256 allocations in a row return every number exactly once and leave the counter where it started (R260, derived). -/
def Obligations.AllocComesRoundAfter256 : Prop :=
  ∀ s : State, ∃ vs t, allocTimes 256 s = some (vs, t) ∧ t.txSeq = s.txSeq ∧ vs.length = 256 ∧ vs.Nodup ∧ ∀ v, v ∈ vs

/-- `TLM.HB` allocates a number and sends `HB` / `OK`, and writes nothing else (R253). A poll runs it exactly when 5000 ms have passed
since the stream last fired: when they have, before anything else it does; when they have not, the poll is its other two lines alone.
The order of the lines is that of R250, decision D12 of the spec (log entry 25). -/
def Obligations.HeartbeatFrame : Prop :=
  ∀ s : State,
    exec .tlmHb s = .next { s with txSeq := s.txSeq + 1, tx := s.tx ++ [sentFrame s.cfg txtHb s.txSeq txtOk] } ∧
    ∀ now,
      (5000 ≤ elapsed now s.lastFireHb →
        ∃ u, exec .tlmHb { s with lastFireHb := now } = .next u ∧ exec (.poll now) s = exec (.poll now) u) ∧
      (elapsed now s.lastFireHb < 5000 → ∃ u v,
        (if 10000 ≤ elapsed now s.lastFireArr then exec .tlmArr { s with lastFireArr := now } else .next s) = .next u ∧
        (if 30000 ≤ elapsed now s.lastFireDl then exec .tlmDl { u with lastFireDl := now } else .next u) = .next v ∧
        exec (.poll now) s = .next v ∧ v.lastFireHb = s.lastFireHb)

/-- `TLM.ARR` allocates a number and sends `ARR` with the route, the stop and the estimate of one moment, and writes nothing else
(R254). A poll runs it exactly when 10000 ms have passed since the stream last fired: when they have, after the heartbeat's turn; when
they have not, the poll is its other two lines alone. The order of the lines is that of R250, decision D12 of the spec (log entry
25). -/
def Obligations.ArrivalFrame : Prop :=
  ∀ s : State,
    exec .tlmArr s = .next { s with txSeq := s.txSeq + 1, tx := s.tx ++ [sentFrame s.cfg txtArr s.txSeq
      (txtRouteEq ++ s.routeId ++ txtCommaStopEq ++ s.cfg.stopId ++ txtCommaEtaEq ++ dec s.etaMinutes.toInt)] } ∧
    ∀ now,
      (10000 ≤ elapsed now s.lastFireArr → ∃ u v,
        (if 5000 ≤ elapsed now s.lastFireHb then exec .tlmHb { s with lastFireHb := now } else .next s) = .next u ∧
        exec .tlmArr { u with lastFireArr := now } = .next v ∧ exec (.poll now) s = exec (.poll now) v) ∧
      (elapsed now s.lastFireArr < 10000 → ∃ u v,
        (if 5000 ≤ elapsed now s.lastFireHb then exec .tlmHb { s with lastFireHb := now } else .next s) = .next u ∧
        (if 30000 ≤ elapsed now s.lastFireDl then exec .tlmDl { u with lastFireDl := now } else .next u) = .next v ∧
        exec (.poll now) s = .next v ∧ v.lastFireArr = s.lastFireArr)

/-- `TLM.DL` allocates a number and sends `DL` / `+5MIN`, which depends on no state, and writes nothing else (R255). A poll runs it
exactly when 30000 ms have passed since the stream last fired: when they have, last; when they have not, the poll is its other two
lines alone. The order of the lines is that of R250, decision D12 of the spec (log entry 25). -/
def Obligations.DelayFrame : Prop :=
  ∀ s : State,
    exec .tlmDl s = .next { s with txSeq := s.txSeq + 1, tx := s.tx ++ [sentFrame s.cfg txtDl s.txSeq txtFiveMin] } ∧
    ∀ now,
      (30000 ≤ elapsed now s.lastFireDl → ∃ u v,
        (if 5000 ≤ elapsed now s.lastFireHb then exec .tlmHb { s with lastFireHb := now } else .next s) = .next u ∧
        (if 10000 ≤ elapsed now s.lastFireArr then exec .tlmArr { u with lastFireArr := now } else .next u) = .next v ∧
        exec (.poll now) s = exec .tlmDl { v with lastFireDl := now }) ∧
      (elapsed now s.lastFireDl < 30000 → ∃ u v,
        (if 5000 ≤ elapsed now s.lastFireHb then exec .tlmHb { s with lastFireHb := now } else .next s) = .next u ∧
        (if 10000 ≤ elapsed now s.lastFireArr then exec .tlmArr { u with lastFireArr := now } else .next u) = .next v ∧
        exec (.poll now) s = .next v ∧ v.lastFireDl = s.lastFireDl)

/-! Reset. -/

/-- `RESET` puts every register at its reset value and transmits nothing; the machine right after reset holds those values in the
reference configuration, with an empty log (R39, R320; the values are decisions D8 to D11 of the spec, log entry 13). That the reset
event, taken in a running machine, keeps the log of the frames already sent, the configuration, the pending events and the returned
value is the model's reading of R320 (log entry 9); the empty log of R39 is that of the machine right after reset, `State.reset`, in
the reference configuration (log entry 1). -/
def Obligations.ResetLeavesTheInitialValues : Prop :=
  (∀ s : State, ∃ t, exec .reset s = .next t ∧
    t.receiving = false ∧ t.rxBuf = [] ∧ t.lastHostSeq.toNat = 0x100 ∧ t.txSeq = s.cfg.txSeqInit ∧
    t.lastFireHb = 0 ∧ t.lastFireArr = 0 ∧ t.lastFireDl = 0 ∧ t.routeId = s.cfg.routeInit ∧ t.etaMinutes = s.cfg.etaInit ∧
    t.tx = s.tx ∧ t.cfg = s.cfg ∧ t.pending = s.pending ∧ t.ret = s.ret) ∧
  State.reset.cfg = cfgRef ∧ State.reset.tx = [] ∧ State.reset.txSeq = 0 ∧ State.reset.routeId = [0x52, 0x31] ∧
  State.reset.etaMinutes = 0 ∧ exec .reset State.reset = .next State.reset

/-! From the wire to the wire. -/

/-- A `PING` framed by `ENCODE` and delivered byte by byte to a sequence-aware node is answered by one `ACK` / `PONG` with its number,
which the watermark then holds, unless the watermark already held it: then nothing is sent (X7 and X5 of spec/95_test_vectors.md;
derived from R138, R170, R176, R210, R222). -/
def Obligations.PingOnTheWireIsAnswered : Prop :=
  ∀ (s : State) (node : Text) (q : Byte) (f : Text) (rest : List Event),
    s.cfg.seqAware = true → fieldOk node = true → f.length ≤ s.cfg.rxCap + 2 →
    exec (.encode txtCmd node q txtPing) s = .next { s with ret := .text f } →
    s.pending = delivers f ++ rest →
    runsTo f.length s
      (if s.lastHostSeq.toNat = q.toNat then { s with receiving := false, rxBuf := [], pending := rest, ret := .none }
       else { s with receiving := false, rxBuf := [], pending := rest, ret := .none,
                     lastHostSeq := BitVec.ofNat 9 q.toNat, tx := s.tx ++ [sentFrame s.cfg txtAck q txtPong] })
end

