-- ==== Sys2Proof/Laws/Operands.lean ====
section
/-! SUPPORT. What the string primitives, the conversions and the checksum function do, said once each. -/

namespace Sys2Proof.Machine

@[simp] theorem xor8_nil : xor8 [] = 0 := rfl

theorem foldl_xor (t : Text) (c : Byte) : t.foldl (· ^^^ ·) c = c ^^^ xor8 t := by
  induction t generalizing c with
  | nil => simp [xor8]
  | cons b t ih =>
    have h : xor8 (b :: t) = b ^^^ xor8 t := by
      rw [xor8, List.foldl_cons, ih]; simp
    rw [List.foldl_cons, ih, h, BitVec.xor_assoc]

@[simp] theorem xor8_cons (b : Byte) (t : Text) : xor8 (b :: t) = b ^^^ xor8 t := by
  rw [xor8, List.foldl_cons, foldl_xor]; simp

theorem xor8_append (s t : Text) : xor8 (s ++ t) = xor8 s ^^^ xor8 t := by
  rw [xor8, List.foldl_append, foldl_xor]; rfl

/-- The first occurrence after a stretch that holds none. -/
theorem idxOf?_append_cons (t rest : Text) (c : Byte) (h : c ∉ t) : (t ++ c :: rest).idxOf? c = some t.length := by
  induction t with
  | nil => simp [List.idxOf?_cons]
  | cons b t ih =>
    have hb : b ≠ c := fun e => h (by simp [e])
    have ht : c ∉ t := fun m => h (List.mem_cons_of_mem b m)
    simp [List.idxOf?_cons, hb, ih ht]

theorem findFirst_zero_append (t rest : Text) (c : Byte) (h : c ∉ t) :
    findFirst (t ++ c :: rest) c 0 = some t.length := by
  simp [findFirst, idxOf?_append_cons t rest c h]

/-- `find_first` from the end of a stretch `u` on. -/
theorem findFirst_append (u t rest : Text) (c : Byte) (h : c ∉ t) :
    findFirst (u ++ (t ++ c :: rest)) c u.length = some (u.length + t.length) := by
  simp [findFirst, idxOf?_append_cons t rest c h]

theorem idxOf?_eq_none (t : Text) (c : Byte) (h : c ∉ t) : t.idxOf? c = none := by
  simpa using h

theorem findFirst_zero_eq_none (t : Text) (c : Byte) (h : c ∉ t) : findFirst t c 0 = none := by
  simp [findFirst, idxOf?_eq_none t c h]

theorem findFirst_eq_none (u t : Text) (c : Byte) (h : c ∉ t) : findFirst (u ++ t) c u.length = none := by
  simp [findFirst, idxOf?_eq_none t c h]

theorem findLast_eq_none (t : Text) (c : Byte) (h : c ∉ t) : findLast t c = none := by
  have : c ∉ t.reverse := by simpa using h
  simp [findLast, idxOf?_eq_none _ _ this]

/-- `find_last` finds the delimiter after which there is no other. -/
theorem findLast_append (s t : Text) (c : Byte) (h : c ∉ t) : findLast (s ++ c :: t) c = some s.length := by
  have ht : c ∉ t.reverse := by simpa using h
  have : (s ++ c :: t).reverse = t.reverse ++ c :: s.reverse := by simp
  rw [findLast, this, idxOf?_append_cons _ _ _ ht]
  simp

/-- A string with a delimiter in it splits at its last one. -/
theorem exists_last_split (f : Text) (c : Byte) (h : c ∈ f) : ∃ s t, f = s ++ c :: t ∧ c ∉ t := by
  induction f with
  | nil => simp at h
  | cons b f ih =>
    by_cases hf : c ∈ f
    · obtain ⟨s, t, rfl, ht⟩ := ih hf
      exact ⟨b :: s, t, by simp, ht⟩
    · obtain rfl | h' := List.mem_cons.mp h
      · exact ⟨[], f, by simp, hf⟩
      · exact absurd h' hf

/-- A string with a delimiter in it splits at its first one. -/
theorem exists_first_split (f : Text) (c : Byte) (h : c ∈ f) : ∃ s t, f = s ++ c :: t ∧ c ∉ s := by
  induction f with
  | nil => simp at h
  | cons b f ih =>
    by_cases hb : b = c
    · exact ⟨[], f, by simp [hb], by simp⟩
    · obtain ⟨s, t, rfl, hs⟩ := ih (by simpa [Ne.symm hb] using h)
      exact ⟨b :: s, t, by simp, by simp [Ne.symm hb, hs]⟩

@[simp] theorem slice_zero_length_append (s t : Text) : slice (s ++ t) 0 s.length = s := by
  simp [slice]

@[simp] theorem slice_all (s : Text) : slice s 0 s.length = s := by
  simp [slice]

/-- The part between two positions, where the first is the end of `u` and the second the end of `t`. -/
theorem slice_mid (u t rest : Text) : slice (u ++ (t ++ rest)) u.length (u.length + t.length) = t := by
  simp [slice, List.take_append]

theorem slice_tail (u t : Text) : slice (u ++ t) u.length (u ++ t).length = t := by
  rw [slice, List.take_length, List.drop_left]

theorem slice_zero (s : Text) (n : Nat) : slice s 0 n = s.take n := by
  simp [slice]

@[simp] theorem length_hex2 (v : Byte) : (hex2 v).length = 2 := rfl

theorem hexval_hex2 (v : Byte) : hexval (hex2 v) = v := by
  revert v; decide +kernel

theorem fs_notMem_hex2 (v : Byte) : FS ∉ hex2 v := by
  revert v; decide +kernel

theorem seqOfText_decSeq (q : Byte) : seqOfText (decSeq q) = q := by
  revert q; decide +kernel

theorem fs_notMem_decSeq (q : Byte) : FS ∉ decSeq q := by
  revert q; decide +kernel

/-- No digit text of a sequence number holds a frame delimiter. -/
theorem delims_notMem_decSeq (q : Byte) : STX ∉ decSeq q ∧ ETX ∉ decSeq q := by
  revert q; decide +kernel

theorem startsWith_iff (s p : Text) : startsWith s p = true ↔ ∃ t, s = p ++ t := by
  simp only [startsWith, List.isPrefixOf_iff_prefix]
  exact ⟨fun ⟨t, h⟩ => ⟨t, h.symm⟩, fun ⟨t, h⟩ => ⟨t, h.symm⟩⟩

@[simp] theorem length_framed (p : Text) : (framed p).length = p.length + 5 := by
  simp [framed, bodyOf, checksumText]

end Sys2Proof.Machine
end

