-- ==== Sys2Proof/Laws/Codec.lean ====
section
/-! SUPPORT. What the codec does to texts: where the bytes of a part come from, which texts hold no delimiter, and what `DECODE`
and the command table answer, case by case. -/

namespace Sys2Proof.Machine

theorem mem_slice {b : Byte} {s : Text} {i j : Nat} (h : b ∈ slice s i j) : b ∈ s :=
  List.mem_of_mem_take (List.mem_of_mem_drop h)

theorem noDelims_iff (t : Text) : noDelims t = true ↔ STX ∉ t ∧ ETX ∉ t := by
  simp only [noDelims, List.all_eq_true, Bool.and_eq_true, bne_iff_ne, ne_eq]
  exact ⟨fun h => ⟨fun m => (h _ m).1 rfl, fun m => (h _ m).2 rfl⟩,
    fun h b m => ⟨fun e => h.1 (e ▸ m), fun e => h.2 (e ▸ m)⟩⟩

theorem noDelims_append (s t : Text) : noDelims (s ++ t) = (noDelims s && noDelims t) := by
  simp [noDelims, List.all_append]

theorem noDelims_subset {s t : Text} (h : ∀ b ∈ s, b ∈ t) (ht : noDelims t = true) : noDelims s = true := by
  rw [noDelims_iff] at ht ⊢
  exact ⟨fun m => ht.1 (h _ m), fun m => ht.2 (h _ m)⟩

theorem mem_decNatFuel (fuel n : Nat) {b : Byte} (h : b ∈ decNatFuel fuel n) : ∃ k, k < 10 ∧ b = decDigit k := by
  have key : decDigit n = decDigit (n % 10) := by simp [decDigit]
  induction fuel generalizing n with
  | zero => exact ⟨n % 10, by omega, by rw [← show decDigit n = decDigit (n % 10) by simp [decDigit]]; simpa [decNatFuel] using h⟩
  | succ fuel ih =>
    rw [decNatFuel] at h
    split at h
    · exact ⟨n % 10, by omega, by rw [← key]; simpa using h⟩
    · rcases List.mem_append.mp h with h | h
      · exact ih _ h (by simp [decDigit])
      · exact ⟨n % 10, by omega, by rw [← key]; simpa using h⟩

/-- The text of a number holds digits and a sign only. -/
theorem mem_dec (v : Int) {b : Byte} (h : b ∈ dec v) : b = 0x2D ∨ ∃ k, k < 10 ∧ b = decDigit k := by
  cases v with
  | ofNat n => exact .inr (mem_decNatFuel n n h)
  | negSucc n =>
    rcases List.mem_cons.mp h with h | h
    · exact .inl h
    · exact .inr (mem_decNatFuel _ _ h)

theorem decDigit_ne : ∀ k < 10, decDigit k ≠ STX ∧ decDigit k ≠ ETX ∧ decDigit k ≠ FS := by decide

theorem noDelims_dec (v : Int) : noDelims (dec v) = true := by
  rw [noDelims_iff]
  constructor <;> intro h <;> rcases mem_dec v h with h | ⟨k, hk, h⟩
  · exact absurd h (by decide)
  · exact (decDigit_ne k hk).1 h.symm
  · exact absurd h (by decide)
  · exact (decDigit_ne k hk).2.1 h.symm

/-- `DECODE` returns parts of the body, and a number exactly when the node is sequence-aware. -/
theorem splitInput_ok {c : Config} {t : Text} {m : Message} (h : splitInput c t = .ok m) :
    m.seq.isSome = c.seqAware ∧ (∀ b ∈ m.type, b ∈ t) ∧ (∀ b ∈ m.node, b ∈ t) ∧ ∀ b ∈ m.data, b ∈ t := by
  unfold splitInput at h
  split at h
  · cases h
  split at h
  · cases h
  split at h
  · split at h
    · cases h
    · cases h
      exact ⟨by simp [*], fun _ => mem_slice, fun _ => mem_slice, fun _ => mem_slice⟩
  · cases h
    exact ⟨by simp [*], fun _ => mem_slice, fun _ => mem_slice, fun _ => mem_slice⟩

theorem decodeBody_ok {c : Config} {f : Text} {m : Message} (h : decodeBody c f = .ok m) :
    m.seq.isSome = c.seqAware ∧ (∀ b ∈ m.type, b ∈ f) ∧ (∀ b ∈ m.node, b ∈ f) ∧ ∀ b ∈ m.data, b ∈ f := by
  unfold decodeBody at h
  split at h
  · cases h
  split at h
  · obtain ⟨h₀, h₁, h₂, h₃⟩ := splitInput_ok h
    exact ⟨h₀, fun b m => mem_slice (h₁ b m), fun b m => mem_slice (h₂ b m), fun b m => mem_slice (h₃ b m)⟩
  · cases h

/-- `DECODE` of a body without a field delimiter. -/
theorem decodeBody_noFs (c : Config) (f : Text) (h : FS ∉ f) : decodeBody c f = .error .format := by
  simp [decodeBody, findLast_eq_none f FS h]

/-- `DECODE` of a body split at its last field delimiter. -/
theorem decodeBody_split (c : Config) (input field : Text) (h : FS ∉ field) :
    decodeBody c (input ++ FS :: field) =
      if xor8 input = hexval field then splitInput c input else .error .checksumMismatch := by
  have e : slice (input ++ FS :: field) (input.length + 1) (input ++ FS :: field).length = field := by
    have := slice_tail (input ++ [FS]) field
    simpa using this
  simp only [decodeBody, findLast_append input field FS h, checksumMatches, e, slice_zero_length_append, beq_iff_eq]

/-- Step 3 of `DECODE` on a checksum input with its delimiters in view. -/
theorem splitInput_fields (c : Config) (type node rest : Text) (h₁ : FS ∉ type) (h₂ : FS ∉ node) :
    splitInput c (type ++ FS :: (node ++ FS :: rest)) =
      if c.seqAware = true then
        match findFirst rest FS 0 with
        | none => .error .format
        | some k => .ok ⟨type, node, some (seqOfText (slice rest 0 k)), slice rest (k + 1) rest.length⟩
      else .ok ⟨type, node, none, rest⟩ := by
  have f₁ : findFirst (type ++ FS :: (node ++ FS :: rest)) FS 0 = some type.length := findFirst_zero_append _ _ _ h₁
  have f₂ : findFirst (type ++ FS :: (node ++ FS :: rest)) FS (type.length + 1) = some (type.length + 1 + node.length) := by
    have := findFirst_append (type ++ [FS]) node rest FS h₂
    simpa using this
  have e₁ : slice (type ++ FS :: (node ++ FS :: rest)) 0 type.length = type := slice_zero_length_append _ _
  have e₂ : slice (type ++ FS :: (node ++ FS :: rest)) (type.length + 1) (type.length + 1 + node.length) = node := by
    have := slice_mid (type ++ [FS]) node (FS :: rest)
    simpa using this
  have e₃ : ∀ k, slice (type ++ FS :: (node ++ FS :: rest)) (type.length + 1 + node.length + 1 + k)
      (type ++ FS :: (node ++ FS :: rest)).length = slice rest k rest.length := by
    intro k
    have : type ++ FS :: (node ++ FS :: rest) = (type ++ FS :: (node ++ [FS])) ++ rest := by simp
    rw [this, slice, slice, List.take_length, List.take_length, List.drop_append]
    have l : (type ++ FS :: (node ++ [FS])).length = type.length + 1 + node.length + 1 := by simp; omega
    rw [l, List.drop_of_length_le (by rw [l]; omega)]
    simp
  have f₃ : findFirst (type ++ FS :: (node ++ FS :: rest)) FS (type.length + 1 + node.length + 1) =
      (findFirst rest FS 0).map (type.length + 1 + node.length + 1 + ·) := by
    have : type ++ FS :: (node ++ FS :: rest) = (type ++ FS :: (node ++ [FS])) ++ rest := by simp
    have l : (type ++ FS :: (node ++ [FS])).length = type.length + 1 + node.length + 1 := by simp; omega
    rw [this, ← l, findFirst, findFirst, List.drop_left]
    simp
  simp only [splitInput, f₁, f₂, f₃, e₁, e₂]
  cases hc : c.seqAware
  · simp only [Bool.false_eq_true, if_false]
    have := e₃ 0
    rw [Nat.add_zero] at this
    rw [this]; simp
  · simp only [if_true]
    cases hk : findFirst rest FS 0 with
    | none => rfl
    | some k =>
      simp only [Option.map_some, Nat.add_assoc] 
      have := e₃ (k+1)
      simp only [Nat.add_assoc] at this
      rw [this]
      congr 3
      have : type ++ FS :: (node ++ FS :: rest) = (type ++ FS :: (node ++ [FS])) ++ rest := by simp
      rw [this, slice, slice, List.take_append, List.drop_append]
      have l : (type ++ FS :: (node ++ [FS])).length = type.length + (1 + (node.length + 1)) := by simp; omega
      rw [l, List.take_of_length_le (by rw [l]; omega), List.drop_of_length_le (by rw [l]), l]
      have e : type.length + (1 + (node.length + (1 + k))) - (type.length + (1 + (node.length + 1))) = k := by omega
      rw [e]; simp

/-- The command table, each pattern told apart (R106). -/
theorem selectCommand_setroute (v : Text) : selectCommand (txtSetroute ++ v) = .setroute v := by
  have h₁ : txtSetroute ++ v ≠ txtPing := by simp [txtSetroute, txtPing]
  have h₂ : txtSetroute ++ v ≠ txtStatus := by simp [txtSetroute, txtStatus]
  have e : slice (txtSetroute ++ v) 9 (txtSetroute ++ v).length = v := slice_tail txtSetroute v
  rw [selectCommand, if_neg h₁, if_neg h₂, if_pos ((startsWith_iff _ _).2 ⟨v, rfl⟩), e]

theorem selectCommand_seteta (v : Text) : selectCommand (txtSeteta ++ v) = .seteta v := by
  have h₁ : txtSeteta ++ v ≠ txtPing := by simp [txtSeteta, txtPing]
  have h₂ : txtSeteta ++ v ≠ txtStatus := by simp [txtSeteta, txtStatus]
  have h₃ : startsWith (txtSeteta ++ v) txtSetroute = false := rfl
  have e : slice (txtSeteta ++ v) 7 (txtSeteta ++ v).length = v := slice_tail txtSeteta v
  rw [selectCommand, if_neg h₁, if_neg h₂, h₃, if_neg (by simp), if_pos ((startsWith_iff _ _).2 ⟨v, rfl⟩), e]

/-- What the command table selects, and when. -/
theorem selectCommand_cases (d : Text) :
    (d = txtPing ∧ selectCommand d = .ping) ∨
    (d = txtStatus ∧ selectCommand d = .status) ∨
    (∃ v, d = txtSetroute ++ v ∧ selectCommand d = .setroute v) ∨
    (∃ v, d = txtSeteta ++ v ∧ selectCommand d = .seteta v) ∨
    (d ≠ txtPing ∧ d ≠ txtStatus ∧ ¬ txtSetroute <+: d ∧ ¬ txtSeteta <+: d ∧ selectCommand d = .unknown) := by
  by_cases h₁ : d = txtPing
  · exact .inl ⟨h₁, by rw [selectCommand, if_pos h₁]⟩
  by_cases h₂ : d = txtStatus
  · exact .inr (.inl ⟨h₂, by rw [selectCommand, if_neg h₁, if_pos h₂]⟩)
  by_cases h₃ : txtSetroute <+: d
  · obtain ⟨v, rfl⟩ := h₃
    exact .inr (.inr (.inl ⟨v, rfl, selectCommand_setroute v⟩))
  by_cases h₄ : txtSeteta <+: d
  · obtain ⟨v, rfl⟩ := h₄
    exact .inr (.inr (.inr (.inl ⟨v, rfl, selectCommand_seteta v⟩)))
  refine .inr (.inr (.inr (.inr ⟨h₁, h₂, h₃, h₄, ?_⟩)))
  rw [selectCommand, if_neg h₁, if_neg h₂, if_neg (by simpa [startsWith] using h₃), if_neg (by simpa [startsWith] using h₄)]

end Sys2Proof.Machine
end

