-- ==== Sys2Proof/Laws/State.lean ====
section
/-! SUPPORT. One lemma for each field and each register write of Machine/Ops.lean, so that no later proof unfolds a record
update. -/

namespace Sys2Proof.Machine

@[simp] theorem State.setReceiving_receiving (s : State) (v : Bool) : (s.setReceiving v).receiving = v := rfl
@[simp] theorem State.setReceiving_rxBuf (s : State) (v : Bool) : (s.setReceiving v).rxBuf = s.rxBuf := rfl
@[simp] theorem State.setReceiving_lastHostSeq (s : State) (v : Bool) : (s.setReceiving v).lastHostSeq = s.lastHostSeq := rfl
@[simp] theorem State.setReceiving_txSeq (s : State) (v : Bool) : (s.setReceiving v).txSeq = s.txSeq := rfl
@[simp] theorem State.setReceiving_lastFireHb (s : State) (v : Bool) : (s.setReceiving v).lastFireHb = s.lastFireHb := rfl
@[simp] theorem State.setReceiving_lastFireArr (s : State) (v : Bool) : (s.setReceiving v).lastFireArr = s.lastFireArr := rfl
@[simp] theorem State.setReceiving_lastFireDl (s : State) (v : Bool) : (s.setReceiving v).lastFireDl = s.lastFireDl := rfl
@[simp] theorem State.setReceiving_routeId (s : State) (v : Bool) : (s.setReceiving v).routeId = s.routeId := rfl
@[simp] theorem State.setReceiving_etaMinutes (s : State) (v : Bool) : (s.setReceiving v).etaMinutes = s.etaMinutes := rfl
@[simp] theorem State.setReceiving_tx (s : State) (v : Bool) : (s.setReceiving v).tx = s.tx := rfl
@[simp] theorem State.setReceiving_cfg (s : State) (v : Bool) : (s.setReceiving v).cfg = s.cfg := rfl
@[simp] theorem State.setReceiving_pending (s : State) (v : Bool) : (s.setReceiving v).pending = s.pending := rfl
@[simp] theorem State.setReceiving_ret (s : State) (v : Bool) : (s.setReceiving v).ret = s.ret := rfl

@[simp] theorem State.setRxBuf_receiving (s : State) (v : Text) : (s.setRxBuf v).receiving = s.receiving := rfl
@[simp] theorem State.setRxBuf_rxBuf (s : State) (v : Text) : (s.setRxBuf v).rxBuf = v := rfl
@[simp] theorem State.setRxBuf_lastHostSeq (s : State) (v : Text) : (s.setRxBuf v).lastHostSeq = s.lastHostSeq := rfl
@[simp] theorem State.setRxBuf_txSeq (s : State) (v : Text) : (s.setRxBuf v).txSeq = s.txSeq := rfl
@[simp] theorem State.setRxBuf_lastFireHb (s : State) (v : Text) : (s.setRxBuf v).lastFireHb = s.lastFireHb := rfl
@[simp] theorem State.setRxBuf_lastFireArr (s : State) (v : Text) : (s.setRxBuf v).lastFireArr = s.lastFireArr := rfl
@[simp] theorem State.setRxBuf_lastFireDl (s : State) (v : Text) : (s.setRxBuf v).lastFireDl = s.lastFireDl := rfl
@[simp] theorem State.setRxBuf_routeId (s : State) (v : Text) : (s.setRxBuf v).routeId = s.routeId := rfl
@[simp] theorem State.setRxBuf_etaMinutes (s : State) (v : Text) : (s.setRxBuf v).etaMinutes = s.etaMinutes := rfl
@[simp] theorem State.setRxBuf_tx (s : State) (v : Text) : (s.setRxBuf v).tx = s.tx := rfl
@[simp] theorem State.setRxBuf_cfg (s : State) (v : Text) : (s.setRxBuf v).cfg = s.cfg := rfl
@[simp] theorem State.setRxBuf_pending (s : State) (v : Text) : (s.setRxBuf v).pending = s.pending := rfl
@[simp] theorem State.setRxBuf_ret (s : State) (v : Text) : (s.setRxBuf v).ret = s.ret := rfl

@[simp] theorem State.setLastHostSeq_receiving (s : State) (v : U9) : (s.setLastHostSeq v).receiving = s.receiving := rfl
@[simp] theorem State.setLastHostSeq_rxBuf (s : State) (v : U9) : (s.setLastHostSeq v).rxBuf = s.rxBuf := rfl
@[simp] theorem State.setLastHostSeq_lastHostSeq (s : State) (v : U9) : (s.setLastHostSeq v).lastHostSeq = v := rfl
@[simp] theorem State.setLastHostSeq_txSeq (s : State) (v : U9) : (s.setLastHostSeq v).txSeq = s.txSeq := rfl
@[simp] theorem State.setLastHostSeq_lastFireHb (s : State) (v : U9) : (s.setLastHostSeq v).lastFireHb = s.lastFireHb := rfl
@[simp] theorem State.setLastHostSeq_lastFireArr (s : State) (v : U9) : (s.setLastHostSeq v).lastFireArr = s.lastFireArr := rfl
@[simp] theorem State.setLastHostSeq_lastFireDl (s : State) (v : U9) : (s.setLastHostSeq v).lastFireDl = s.lastFireDl := rfl
@[simp] theorem State.setLastHostSeq_routeId (s : State) (v : U9) : (s.setLastHostSeq v).routeId = s.routeId := rfl
@[simp] theorem State.setLastHostSeq_etaMinutes (s : State) (v : U9) : (s.setLastHostSeq v).etaMinutes = s.etaMinutes := rfl
@[simp] theorem State.setLastHostSeq_tx (s : State) (v : U9) : (s.setLastHostSeq v).tx = s.tx := rfl
@[simp] theorem State.setLastHostSeq_cfg (s : State) (v : U9) : (s.setLastHostSeq v).cfg = s.cfg := rfl
@[simp] theorem State.setLastHostSeq_pending (s : State) (v : U9) : (s.setLastHostSeq v).pending = s.pending := rfl
@[simp] theorem State.setLastHostSeq_ret (s : State) (v : U9) : (s.setLastHostSeq v).ret = s.ret := rfl

@[simp] theorem State.setTxSeq_receiving (s : State) (v : Byte) : (s.setTxSeq v).receiving = s.receiving := rfl
@[simp] theorem State.setTxSeq_rxBuf (s : State) (v : Byte) : (s.setTxSeq v).rxBuf = s.rxBuf := rfl
@[simp] theorem State.setTxSeq_lastHostSeq (s : State) (v : Byte) : (s.setTxSeq v).lastHostSeq = s.lastHostSeq := rfl
@[simp] theorem State.setTxSeq_txSeq (s : State) (v : Byte) : (s.setTxSeq v).txSeq = v := rfl
@[simp] theorem State.setTxSeq_lastFireHb (s : State) (v : Byte) : (s.setTxSeq v).lastFireHb = s.lastFireHb := rfl
@[simp] theorem State.setTxSeq_lastFireArr (s : State) (v : Byte) : (s.setTxSeq v).lastFireArr = s.lastFireArr := rfl
@[simp] theorem State.setTxSeq_lastFireDl (s : State) (v : Byte) : (s.setTxSeq v).lastFireDl = s.lastFireDl := rfl
@[simp] theorem State.setTxSeq_routeId (s : State) (v : Byte) : (s.setTxSeq v).routeId = s.routeId := rfl
@[simp] theorem State.setTxSeq_etaMinutes (s : State) (v : Byte) : (s.setTxSeq v).etaMinutes = s.etaMinutes := rfl
@[simp] theorem State.setTxSeq_tx (s : State) (v : Byte) : (s.setTxSeq v).tx = s.tx := rfl
@[simp] theorem State.setTxSeq_cfg (s : State) (v : Byte) : (s.setTxSeq v).cfg = s.cfg := rfl
@[simp] theorem State.setTxSeq_pending (s : State) (v : Byte) : (s.setTxSeq v).pending = s.pending := rfl
@[simp] theorem State.setTxSeq_ret (s : State) (v : Byte) : (s.setTxSeq v).ret = s.ret := rfl

@[simp] theorem State.setLastFireHb_receiving (s : State) (v : U32) : (s.setLastFireHb v).receiving = s.receiving := rfl
@[simp] theorem State.setLastFireHb_rxBuf (s : State) (v : U32) : (s.setLastFireHb v).rxBuf = s.rxBuf := rfl
@[simp] theorem State.setLastFireHb_lastHostSeq (s : State) (v : U32) : (s.setLastFireHb v).lastHostSeq = s.lastHostSeq := rfl
@[simp] theorem State.setLastFireHb_txSeq (s : State) (v : U32) : (s.setLastFireHb v).txSeq = s.txSeq := rfl
@[simp] theorem State.setLastFireHb_lastFireHb (s : State) (v : U32) : (s.setLastFireHb v).lastFireHb = v := rfl
@[simp] theorem State.setLastFireHb_lastFireArr (s : State) (v : U32) : (s.setLastFireHb v).lastFireArr = s.lastFireArr := rfl
@[simp] theorem State.setLastFireHb_lastFireDl (s : State) (v : U32) : (s.setLastFireHb v).lastFireDl = s.lastFireDl := rfl
@[simp] theorem State.setLastFireHb_routeId (s : State) (v : U32) : (s.setLastFireHb v).routeId = s.routeId := rfl
@[simp] theorem State.setLastFireHb_etaMinutes (s : State) (v : U32) : (s.setLastFireHb v).etaMinutes = s.etaMinutes := rfl
@[simp] theorem State.setLastFireHb_tx (s : State) (v : U32) : (s.setLastFireHb v).tx = s.tx := rfl
@[simp] theorem State.setLastFireHb_cfg (s : State) (v : U32) : (s.setLastFireHb v).cfg = s.cfg := rfl
@[simp] theorem State.setLastFireHb_pending (s : State) (v : U32) : (s.setLastFireHb v).pending = s.pending := rfl
@[simp] theorem State.setLastFireHb_ret (s : State) (v : U32) : (s.setLastFireHb v).ret = s.ret := rfl

@[simp] theorem State.setLastFireArr_receiving (s : State) (v : U32) : (s.setLastFireArr v).receiving = s.receiving := rfl
@[simp] theorem State.setLastFireArr_rxBuf (s : State) (v : U32) : (s.setLastFireArr v).rxBuf = s.rxBuf := rfl
@[simp] theorem State.setLastFireArr_lastHostSeq (s : State) (v : U32) : (s.setLastFireArr v).lastHostSeq = s.lastHostSeq := rfl
@[simp] theorem State.setLastFireArr_txSeq (s : State) (v : U32) : (s.setLastFireArr v).txSeq = s.txSeq := rfl
@[simp] theorem State.setLastFireArr_lastFireHb (s : State) (v : U32) : (s.setLastFireArr v).lastFireHb = s.lastFireHb := rfl
@[simp] theorem State.setLastFireArr_lastFireArr (s : State) (v : U32) : (s.setLastFireArr v).lastFireArr = v := rfl
@[simp] theorem State.setLastFireArr_lastFireDl (s : State) (v : U32) : (s.setLastFireArr v).lastFireDl = s.lastFireDl := rfl
@[simp] theorem State.setLastFireArr_routeId (s : State) (v : U32) : (s.setLastFireArr v).routeId = s.routeId := rfl
@[simp] theorem State.setLastFireArr_etaMinutes (s : State) (v : U32) : (s.setLastFireArr v).etaMinutes = s.etaMinutes := rfl
@[simp] theorem State.setLastFireArr_tx (s : State) (v : U32) : (s.setLastFireArr v).tx = s.tx := rfl
@[simp] theorem State.setLastFireArr_cfg (s : State) (v : U32) : (s.setLastFireArr v).cfg = s.cfg := rfl
@[simp] theorem State.setLastFireArr_pending (s : State) (v : U32) : (s.setLastFireArr v).pending = s.pending := rfl
@[simp] theorem State.setLastFireArr_ret (s : State) (v : U32) : (s.setLastFireArr v).ret = s.ret := rfl

@[simp] theorem State.setLastFireDl_receiving (s : State) (v : U32) : (s.setLastFireDl v).receiving = s.receiving := rfl
@[simp] theorem State.setLastFireDl_rxBuf (s : State) (v : U32) : (s.setLastFireDl v).rxBuf = s.rxBuf := rfl
@[simp] theorem State.setLastFireDl_lastHostSeq (s : State) (v : U32) : (s.setLastFireDl v).lastHostSeq = s.lastHostSeq := rfl
@[simp] theorem State.setLastFireDl_txSeq (s : State) (v : U32) : (s.setLastFireDl v).txSeq = s.txSeq := rfl
@[simp] theorem State.setLastFireDl_lastFireHb (s : State) (v : U32) : (s.setLastFireDl v).lastFireHb = s.lastFireHb := rfl
@[simp] theorem State.setLastFireDl_lastFireArr (s : State) (v : U32) : (s.setLastFireDl v).lastFireArr = s.lastFireArr := rfl
@[simp] theorem State.setLastFireDl_lastFireDl (s : State) (v : U32) : (s.setLastFireDl v).lastFireDl = v := rfl
@[simp] theorem State.setLastFireDl_routeId (s : State) (v : U32) : (s.setLastFireDl v).routeId = s.routeId := rfl
@[simp] theorem State.setLastFireDl_etaMinutes (s : State) (v : U32) : (s.setLastFireDl v).etaMinutes = s.etaMinutes := rfl
@[simp] theorem State.setLastFireDl_tx (s : State) (v : U32) : (s.setLastFireDl v).tx = s.tx := rfl
@[simp] theorem State.setLastFireDl_cfg (s : State) (v : U32) : (s.setLastFireDl v).cfg = s.cfg := rfl
@[simp] theorem State.setLastFireDl_pending (s : State) (v : U32) : (s.setLastFireDl v).pending = s.pending := rfl
@[simp] theorem State.setLastFireDl_ret (s : State) (v : U32) : (s.setLastFireDl v).ret = s.ret := rfl

@[simp] theorem State.setRouteId_receiving (s : State) (v : Text) : (s.setRouteId v).receiving = s.receiving := rfl
@[simp] theorem State.setRouteId_rxBuf (s : State) (v : Text) : (s.setRouteId v).rxBuf = s.rxBuf := rfl
@[simp] theorem State.setRouteId_lastHostSeq (s : State) (v : Text) : (s.setRouteId v).lastHostSeq = s.lastHostSeq := rfl
@[simp] theorem State.setRouteId_txSeq (s : State) (v : Text) : (s.setRouteId v).txSeq = s.txSeq := rfl
@[simp] theorem State.setRouteId_lastFireHb (s : State) (v : Text) : (s.setRouteId v).lastFireHb = s.lastFireHb := rfl
@[simp] theorem State.setRouteId_lastFireArr (s : State) (v : Text) : (s.setRouteId v).lastFireArr = s.lastFireArr := rfl
@[simp] theorem State.setRouteId_lastFireDl (s : State) (v : Text) : (s.setRouteId v).lastFireDl = s.lastFireDl := rfl
@[simp] theorem State.setRouteId_routeId (s : State) (v : Text) : (s.setRouteId v).routeId = v := rfl
@[simp] theorem State.setRouteId_etaMinutes (s : State) (v : Text) : (s.setRouteId v).etaMinutes = s.etaMinutes := rfl
@[simp] theorem State.setRouteId_tx (s : State) (v : Text) : (s.setRouteId v).tx = s.tx := rfl
@[simp] theorem State.setRouteId_cfg (s : State) (v : Text) : (s.setRouteId v).cfg = s.cfg := rfl
@[simp] theorem State.setRouteId_pending (s : State) (v : Text) : (s.setRouteId v).pending = s.pending := rfl
@[simp] theorem State.setRouteId_ret (s : State) (v : Text) : (s.setRouteId v).ret = s.ret := rfl

@[simp] theorem State.setEtaMinutes_receiving (s : State) (v : U32) : (s.setEtaMinutes v).receiving = s.receiving := rfl
@[simp] theorem State.setEtaMinutes_rxBuf (s : State) (v : U32) : (s.setEtaMinutes v).rxBuf = s.rxBuf := rfl
@[simp] theorem State.setEtaMinutes_lastHostSeq (s : State) (v : U32) : (s.setEtaMinutes v).lastHostSeq = s.lastHostSeq := rfl
@[simp] theorem State.setEtaMinutes_txSeq (s : State) (v : U32) : (s.setEtaMinutes v).txSeq = s.txSeq := rfl
@[simp] theorem State.setEtaMinutes_lastFireHb (s : State) (v : U32) : (s.setEtaMinutes v).lastFireHb = s.lastFireHb := rfl
@[simp] theorem State.setEtaMinutes_lastFireArr (s : State) (v : U32) : (s.setEtaMinutes v).lastFireArr = s.lastFireArr := rfl
@[simp] theorem State.setEtaMinutes_lastFireDl (s : State) (v : U32) : (s.setEtaMinutes v).lastFireDl = s.lastFireDl := rfl
@[simp] theorem State.setEtaMinutes_routeId (s : State) (v : U32) : (s.setEtaMinutes v).routeId = s.routeId := rfl
@[simp] theorem State.setEtaMinutes_etaMinutes (s : State) (v : U32) : (s.setEtaMinutes v).etaMinutes = v := rfl
@[simp] theorem State.setEtaMinutes_tx (s : State) (v : U32) : (s.setEtaMinutes v).tx = s.tx := rfl
@[simp] theorem State.setEtaMinutes_cfg (s : State) (v : U32) : (s.setEtaMinutes v).cfg = s.cfg := rfl
@[simp] theorem State.setEtaMinutes_pending (s : State) (v : U32) : (s.setEtaMinutes v).pending = s.pending := rfl
@[simp] theorem State.setEtaMinutes_ret (s : State) (v : U32) : (s.setEtaMinutes v).ret = s.ret := rfl

@[simp] theorem State.setPending_receiving (s : State) (v : List Event) : (s.setPending v).receiving = s.receiving := rfl
@[simp] theorem State.setPending_rxBuf (s : State) (v : List Event) : (s.setPending v).rxBuf = s.rxBuf := rfl
@[simp] theorem State.setPending_lastHostSeq (s : State) (v : List Event) : (s.setPending v).lastHostSeq = s.lastHostSeq := rfl
@[simp] theorem State.setPending_txSeq (s : State) (v : List Event) : (s.setPending v).txSeq = s.txSeq := rfl
@[simp] theorem State.setPending_lastFireHb (s : State) (v : List Event) : (s.setPending v).lastFireHb = s.lastFireHb := rfl
@[simp] theorem State.setPending_lastFireArr (s : State) (v : List Event) : (s.setPending v).lastFireArr = s.lastFireArr := rfl
@[simp] theorem State.setPending_lastFireDl (s : State) (v : List Event) : (s.setPending v).lastFireDl = s.lastFireDl := rfl
@[simp] theorem State.setPending_routeId (s : State) (v : List Event) : (s.setPending v).routeId = s.routeId := rfl
@[simp] theorem State.setPending_etaMinutes (s : State) (v : List Event) : (s.setPending v).etaMinutes = s.etaMinutes := rfl
@[simp] theorem State.setPending_tx (s : State) (v : List Event) : (s.setPending v).tx = s.tx := rfl
@[simp] theorem State.setPending_cfg (s : State) (v : List Event) : (s.setPending v).cfg = s.cfg := rfl
@[simp] theorem State.setPending_pending (s : State) (v : List Event) : (s.setPending v).pending = v := rfl
@[simp] theorem State.setPending_ret (s : State) (v : List Event) : (s.setPending v).ret = s.ret := rfl

@[simp] theorem State.setRet_receiving (s : State) (v : Ret) : (s.setRet v).receiving = s.receiving := rfl
@[simp] theorem State.setRet_rxBuf (s : State) (v : Ret) : (s.setRet v).rxBuf = s.rxBuf := rfl
@[simp] theorem State.setRet_lastHostSeq (s : State) (v : Ret) : (s.setRet v).lastHostSeq = s.lastHostSeq := rfl
@[simp] theorem State.setRet_txSeq (s : State) (v : Ret) : (s.setRet v).txSeq = s.txSeq := rfl
@[simp] theorem State.setRet_lastFireHb (s : State) (v : Ret) : (s.setRet v).lastFireHb = s.lastFireHb := rfl
@[simp] theorem State.setRet_lastFireArr (s : State) (v : Ret) : (s.setRet v).lastFireArr = s.lastFireArr := rfl
@[simp] theorem State.setRet_lastFireDl (s : State) (v : Ret) : (s.setRet v).lastFireDl = s.lastFireDl := rfl
@[simp] theorem State.setRet_routeId (s : State) (v : Ret) : (s.setRet v).routeId = s.routeId := rfl
@[simp] theorem State.setRet_etaMinutes (s : State) (v : Ret) : (s.setRet v).etaMinutes = s.etaMinutes := rfl
@[simp] theorem State.setRet_tx (s : State) (v : Ret) : (s.setRet v).tx = s.tx := rfl
@[simp] theorem State.setRet_cfg (s : State) (v : Ret) : (s.setRet v).cfg = s.cfg := rfl
@[simp] theorem State.setRet_pending (s : State) (v : Ret) : (s.setRet v).pending = s.pending := rfl
@[simp] theorem State.setRet_ret (s : State) (v : Ret) : (s.setRet v).ret = v := rfl

@[simp] theorem State.transmit_receiving (s : State) (f : Text) : (s.transmit f).receiving = s.receiving := rfl
@[simp] theorem State.transmit_rxBuf (s : State) (f : Text) : (s.transmit f).rxBuf = s.rxBuf := rfl
@[simp] theorem State.transmit_lastHostSeq (s : State) (f : Text) : (s.transmit f).lastHostSeq = s.lastHostSeq := rfl
@[simp] theorem State.transmit_txSeq (s : State) (f : Text) : (s.transmit f).txSeq = s.txSeq := rfl
@[simp] theorem State.transmit_lastFireHb (s : State) (f : Text) : (s.transmit f).lastFireHb = s.lastFireHb := rfl
@[simp] theorem State.transmit_lastFireArr (s : State) (f : Text) : (s.transmit f).lastFireArr = s.lastFireArr := rfl
@[simp] theorem State.transmit_lastFireDl (s : State) (f : Text) : (s.transmit f).lastFireDl = s.lastFireDl := rfl
@[simp] theorem State.transmit_routeId (s : State) (f : Text) : (s.transmit f).routeId = s.routeId := rfl
@[simp] theorem State.transmit_etaMinutes (s : State) (f : Text) : (s.transmit f).etaMinutes = s.etaMinutes := rfl
@[simp] theorem State.transmit_tx (s : State) (f : Text) : (s.transmit f).tx = s.tx ++ [f] := rfl
@[simp] theorem State.transmit_cfg (s : State) (f : Text) : (s.transmit f).cfg = s.cfg := rfl
@[simp] theorem State.transmit_pending (s : State) (f : Text) : (s.transmit f).pending = s.pending := rfl
@[simp] theorem State.transmit_ret (s : State) (f : Text) : (s.transmit f).ret = s.ret := rfl

end Sys2Proof.Machine
end

