-- ==== Sys2Proof/Laws/Ops.lean ====
section
/-! SUPPORT. For each shared operation one lemma that says once everything it can do. -/

namespace Sys2Proof.Machine

/-- The model's joined payload is the wire's. -/
theorem joinPayload_eq_wirePayload (c : Config) (type : Text) (seq : Byte) (data : Text) :
    joinPayload c type c.nodeId seq data = wirePayload c type seq data := by
  cases h : c.seqAware <;> simp [joinPayload, joinText, wirePayload, h]

/-- The model's frame is the wire's. -/
theorem framed_eq_wireFrame (p : Text) : framed p = wireFrame p := by
  simp [framed, bodyOf, checksumText, wireFrame]

/-- The model's literal frame is the wire's. -/
theorem literalFrame_eq_wireLiteral (c : Config) (reason : Text) : literalFrame c reason = wireLiteral c reason := by
  cases h : c.seqAware <;> simp [literalFrame, joinText, wireLiteral, framed_eq_wireFrame, h]

/-- `ENCODE`, its two checks written out. -/
theorem encodeFrame_eq (c : Config) (type node : Text) (seq : Byte) (data : Text) :
    encodeFrame c type node seq data =
      if c.payloadCap < (joinPayload c type node seq data).length then .error .payloadTooLarge
      else if c.txCap < (joinPayload c type node seq data).length + 5 then .error .frameTooLarge
      else .ok (framed (joinPayload c type node seq data)) := by
  simp [encodeFrame, exceedsPayloadCap, exceedsTxCap]

/-- `SEND` transmits exactly one frame and does nothing else. -/
theorem sendFrame_eq (type : Text) (seq : Byte) (data : Text) (s : State) :
    sendFrame type seq data s = s.transmit (sentFrame s.cfg type seq data) := by
  unfold sendFrame sentFrame
  rw [encodeFrame_eq, joinPayload_eq_wirePayload]
  by_cases h₁ : s.cfg.payloadCap < (wirePayload s.cfg type seq data).length
  · simp [h₁, substitute, litTxTooLongFrame, literalFrame_eq_wireLiteral]
  · by_cases h₂ : s.cfg.txCap < (wirePayload s.cfg type seq data).length + 5
    · simp [h₁, h₂, substitute, litFrmTooLongFrame, literalFrame_eq_wireLiteral]
    · simp [h₁, h₂, framed_eq_wireFrame]

/-- A frame with an allocated number: the counter advances, one frame goes out, nothing else happens. -/
theorem sendAuto_eq (type data : Text) (s : State) :
    sendAuto type data s = (s.setTxSeq (s.txSeq + 1)).transmit (sentFrame s.cfg type s.txSeq data) := by
  simp [sendAuto, allocSeq, sendFrame_eq]

/-- A reply: one frame goes out, nothing else happens. -/
theorem reply_eq (type : Text) (seq : Option Byte) (data : Text) (s : State) :
    reply type seq data s = s.transmit (sentFrame s.cfg type (seqOperand seq) data) := by
  simp [reply, sendFrame_eq]

/-- The write of `route_id`. -/
theorem writeRoute_eq (v : Text) (s : State) : writeRoute v s = s.setRouteId (v.take s.cfg.routeCap) := by
  rw [writeRoute, slice_zero]
  congr 1
  rcases Nat.le_total v.length s.cfg.routeCap with h | h
  · rw [Nat.min_eq_left h, List.take_length, List.take_of_length_le h]
  · rw [Nat.min_eq_right h]

/-- The write of `RXBUF`: it faults on a full buffer, else it appends one byte. -/
theorem appendRx_cases (b : Byte) (s : State) :
    (s.cfg.rxCap ≤ s.rxBuf.length ∧ appendRx b s = .fault .rxbufIndex) ∨
    (s.rxBuf.length < s.cfg.rxCap ∧ appendRx b s = .next (s.setRxBuf (s.rxBuf ++ [b]))) := by
  by_cases h : s.rxBuf.length < s.cfg.rxCap
  · exact .inr ⟨h, by simp [appendRx, bufferFull, State.rxLen, h]⟩
  · exact .inl ⟨by omega, by simp [appendRx, bufferFull, State.rxLen, h]⟩

/-- `DEDUP.ACCEPT`: a duplicate changes nothing, any other number is stored. -/
theorem dedupAccept_cases (q : Byte) (s : State) :
    (q.setWidth 9 = s.lastHostSeq ∧ dedupAccept q s = (false, s)) ∨
    (q.setWidth 9 ≠ s.lastHostSeq ∧ dedupAccept q s = (true, s.setLastHostSeq (q.setWidth 9))) := by
  by_cases h : q.setWidth 9 = s.lastHostSeq
  · exact .inl ⟨h, by simp [dedupAccept, isDuplicate, h]⟩
  · exact .inr ⟨h, by simp [dedupAccept, isDuplicate, h]⟩

/-- The whole of what is stored of a body. -/
theorem memRead_rxbuf (s : State) : memRead .rxbuf s 0 s.rxLen = s.rxBuf := by
  simp [memRead, spaceBytes, State.rxLen]

/-- The choice of R130, written out. -/
theorem selectByte_eq (receiving full : Bool) (b : Byte) :
    selectByte receiving full b =
      if b = 0x02 then .stx
      else if receiving = false then .idle
      else if b = 0x03 then .etx
      else if full = false then .data
      else .ovf := rfl

/-- An event's end only clears what its operation returned. -/
theorem endEvent_eq_next (o : Host.Outcome State Fault Refusal) (t : State) :
    endEvent o = .next t ↔ ∃ u, o = .next u ∧ t = u.setRet .none := by
  cases o <;> simp [endEvent, eq_comm]

end Sys2Proof.Machine
end

