-- ==== Sys2Proof/Laws/Frame.lean ====
section
/-! SUPPORT. Once each: everything that an accepted command and the handling of a frame can do. -/

namespace Sys2Proof.Machine

/-- What an accepted command does: its one reply, from a state in which at most `route_id` or `eta_minutes` was written. -/
theorem runCommand_eq (seq : Option Byte) (d : Text) (s : State) :
    (d = txtPing ∧ runCommand seq d s = s.transmit (sentFrame s.cfg txtAck (seqOperand seq) txtPong)) ∨
    (d = txtStatus ∧ runCommand seq d s =
      s.transmit (sentFrame s.cfg txtStatus (seqOperand seq) (statusData s.cfg s.routeId s.etaMinutes))) ∨
    (∃ v, d = txtSetroute ++ v ∧ runCommand seq d s =
      (s.setRouteId (v.take s.cfg.routeCap)).transmit (sentFrame s.cfg txtAck (seqOperand seq) txtRouteSet)) ∨
    (∃ v, d = txtSeteta ++ v ∧ runCommand seq d s =
      (s.setEtaMinutes (wrapI32 (parseInt v))).transmit (sentFrame s.cfg txtAck (seqOperand seq) txtEtaSet)) ∨
    (d ≠ txtPing ∧ d ≠ txtStatus ∧ ¬ txtSetroute <+: d ∧ ¬ txtSeteta <+: d ∧ runCommand seq d s =
      s.transmit (sentFrame s.cfg txtErr (seqOperand seq) txtUnknownCmd)) := by
  unfold runCommand
  rcases selectCommand_cases d with ⟨h, e⟩ | ⟨h, e⟩ | ⟨v, h, e⟩ | ⟨v, h, e⟩ | ⟨h₁, h₂, h₃, h₄, e⟩
  · exact .inl ⟨h, by rw [e]; simp only [cmdPing, reply_eq]⟩
  · exact .inr (.inl ⟨h, by rw [e]; simp only [cmdStatus, reply_eq]⟩)
  · exact .inr (.inr (.inl ⟨v, h, by rw [e]; simp only [cmdSetroute, reply_eq, writeRoute_eq]; rfl⟩))
  · exact .inr (.inr (.inr (.inl ⟨v, h, by rw [e]; simp only [cmdSeteta, reply_eq]; rfl⟩)))
  · exact .inr (.inr (.inr (.inr ⟨h₁, h₂, h₃, h₄, by rw [e]; simp only [cmdUnknown, takeError, reply_eq]⟩)))

/-- Everything that the handling of one body can do. -/
theorem frameHandle_cases (f : Text) (s : State) :
    (decodeBody s.cfg f = .error .format ∧
      frameHandle f s = (s.setTxSeq (s.txSeq + 1)).transmit (sentFrame s.cfg txtErr s.txSeq txtFormat)) ∨
    (decodeBody s.cfg f = .error .checksumMismatch ∧
      frameHandle f s = (s.setTxSeq (s.txSeq + 1)).transmit (sentFrame s.cfg txtErr s.txSeq txtChk)) ∨
    ∃ m, decodeBody s.cfg f = .ok m ∧
      ((m.type ≠ txtCmd ∧ s.cfg.unknownTypeReply = false ∧ frameHandle f s = s) ∨
       (m.type ≠ txtCmd ∧ s.cfg.unknownTypeReply = true ∧
          frameHandle f s = s.transmit (sentFrame s.cfg txtErr (seqOperand m.seq) txtUnknownType)) ∨
       (m.type = txtCmd ∧ (∃ q, m.seq = some q ∧ q.setWidth 9 = s.lastHostSeq) ∧ frameHandle f s = s) ∨
       (m.type = txtCmd ∧ s.cfg.seqAware = false ∧ m.seq = none ∧ frameHandle f s = runCommand none m.data s) ∨
       (m.type = txtCmd ∧ s.cfg.seqAware = true ∧ ∃ q, m.seq = some q ∧ q.setWidth 9 ≠ s.lastHostSeq ∧
          frameHandle f s = runCommand (some q) m.data (s.setLastHostSeq (q.setWidth 9)))) := by
  cases h : decodeBody s.cfg f with
  | error e =>
    cases e with
    | format => exact .inl ⟨rfl, by simp only [frameHandle, h, takeError, sendAuto_eq]⟩
    | checksumMismatch => exact .inr (.inl ⟨rfl, by simp only [frameHandle, h, takeError, sendAuto_eq]⟩)
  | ok m =>
    refine .inr (.inr ⟨m, rfl, ?_⟩)
    have hs := (decodeBody_ok h).1
    by_cases hc : m.type = txtCmd
    · cases hq : m.seq with
      | none =>
        have ha : s.cfg.seqAware = false := by rw [← hs, hq]; rfl
        exact .inr (.inr (.inr (.inl ⟨hc, ha, rfl, by simp [frameHandle, h, handleMessage, isCommand, hc, acceptCommand, ha, hq]⟩)))
      | some q =>
        have ha : s.cfg.seqAware = true := by rw [← hs, hq]; rfl
        rcases dedupAccept_cases q s with ⟨hd, e⟩ | ⟨hd, e⟩
        · exact .inr (.inr (.inl ⟨hc, ⟨q, rfl, hd⟩, by
            simp [frameHandle, h, handleMessage, isCommand, hc, acceptCommand, ha, hq, seqOperand, e, takeError]⟩))
        · exact .inr (.inr (.inr (.inr ⟨hc, ha, q, rfl, hd, by
            simp [frameHandle, h, handleMessage, isCommand, hc, acceptCommand, ha, hq, seqOperand, e]⟩)))
    · cases hu : s.cfg.unknownTypeReply
      · exact .inl ⟨hc, rfl, by simp [frameHandle, h, handleMessage, isCommand, hc, typeOther, takeError, hu]⟩
      · exact .inr (.inl ⟨hc, rfl, by simp [frameHandle, h, handleMessage, isCommand, hc, typeOther, takeError, hu, reply_eq]⟩)

end Sys2Proof.Machine
end

