-- ==== Sys2Proof/Laws/Memory.lean ====
section
/-! SUPPORT. Memory: the two byte spaces of spec/20_memory.md rule R60 keep their canonical form under every operation that
writes them, a read after a write answers what was written, and a write leaves every other byte alone. -/

namespace Sys2Proof.Machine

theorem memory_wf_iff (s : State) :
    Memory.wf s = true ↔ s.rxBuf.length ≤ s.cfg.rxCap ∧ s.routeId.length ≤ s.cfg.routeCap := by
  simp [Memory.wf]

/-- The cells of a space have strictly rising addresses. -/
theorem memCells_rising (sp : Space) (s : State) : (memCells sp s).Pairwise fun x y => x.1 < y.1 := by
  have h : ∀ (t : Text) (k : Nat), ((t.zipIdx k).map fun x => (x.2, x.1)).Pairwise fun x y : Host.Cell => x.1 < y.1 := by
    intro t
    induction t with
    | nil => intro k; simp
    | cons b t ih =>
      intro k
      refine List.pairwise_cons.2 ⟨?_, ih (k + 1)⟩
      intro x hx
      obtain ⟨⟨c, n⟩, hc, rfl⟩ := List.mem_map.1 hx
      have := (List.mem_zipIdx hc).1
      simp only at this ⊢
      omega
  exact h _ 0

/-- Spaces with the same cells hold the same bytes. -/
theorem memCells_inj (sp : Space) (s t : State) (h : memCells sp s = memCells sp t) : spaceBytes sp s = spaceBytes sp t := by
  have e : ∀ u : State, (memCells sp u).map Prod.snd = spaceBytes sp u := by
    intro u
    simp [memCells, List.map_map, Function.comp_def]
  rw [← e s, ← e t, h]

theorem restart_wf (v : Bool) (s : State) (h : Memory.wf s = true) : Memory.wf (restart v s) = true := by
  rw [memory_wf_iff] at h ⊢
  exact ⟨Nat.zero_le _, h.2⟩

theorem appendRx_wf (b : Byte) (s t : State) (h : Memory.wf s = true) (e : appendRx b s = .next t) :
    Memory.wf t = true := by
  rw [memory_wf_iff] at h ⊢
  rcases appendRx_cases b s with ⟨_, e'⟩ | ⟨hl, e'⟩ <;> rw [e'] at e <;> cases e
  refine ⟨?_, h.2⟩
  show (s.rxBuf ++ [b]).length ≤ _
  rw [List.length_append]
  exact hl

theorem writeRoute_wf (v : Text) (s : State) (h : Memory.wf s = true) : Memory.wf (writeRoute v s) = true := by
  rw [memory_wf_iff] at h ⊢
  rw [writeRoute_eq]
  exact ⟨h.1, List.length_take_le _ _⟩

theorem resetRegisters_wf (s : State) (h : s.cfg.routeFits = true) : Memory.wf (resetRegisters s) = true := by
  rw [memory_wf_iff]
  exact ⟨Nat.zero_le _, of_decide_eq_true h⟩

/-- The operations that write neither space keep the form of both. -/
theorem transmit_wf (f : Text) (s : State) : Memory.wf (s.transmit f) = Memory.wf s := rfl

theorem setTxSeq_wf (v : Byte) (s : State) : Memory.wf (s.setTxSeq v) = Memory.wf s := rfl

theorem reset_memory_wf : Memory.wf State.reset = true := by decide

/-- A write to `RXBUF` puts the byte at the old length, moves no other byte, and leaves `ROUTE` alone. -/
theorem memByte_appendRx (b : Byte) (s t : State) (e : appendRx b s = .next t) :
    memByte .rxbuf t s.rxLen = some b ∧ (∀ a, a ≠ s.rxLen → memByte .rxbuf t a = memByte .rxbuf s a) ∧
      ∀ a, memByte .route t a = memByte .route s a := by
  rcases appendRx_cases b s with ⟨_, e'⟩ | ⟨_, e'⟩ <;> rw [e'] at e <;> cases e
  refine ⟨by simp [memByte, spaceBytes, State.rxLen], ?_, fun a => rfl⟩
  intro a ha
  simp only [memByte, spaceBytes, State.rxLen, State.setRxBuf_rxBuf] at ha ⊢
  rw [List.getElem?_append]
  split
  · rfl
  · rw [List.getElem?_eq_none (by simp; omega), List.getElem?_eq_none (by omega)]

/-- A write to `ROUTE` leaves `RXBUF` alone, and reads back byte by byte. -/
theorem memByte_writeRoute (v : Text) (s : State) (a : Nat) :
    memByte .route (writeRoute v s) a = (if a < s.cfg.routeCap then v[a]? else none) ∧
      memByte .rxbuf (writeRoute v s) a = memByte .rxbuf s a := by
  rw [writeRoute_eq]
  exact ⟨List.getElem?_take, rfl⟩

end Sys2Proof.Machine
end

