-- ==== Sys2Proof/Laws/PerInstr.lean ====
section
/-! SUPPORT. The family `EncodeFormat`: the code of an instruction is of the format that its row of the opcode table has, in
every context (spec/30_encoding.md rule R120; `FRAME.HANDLE` is a call, R220). -/

namespace Sys2Proof.Laws

/-- The encoder gives the instruction a code of its row's format. -/
def EncodeFormat.Statement (i : Instr) : Prop :=
  ∀ x : Ctx, (encode x i).isOf i.format = true

theorem EncodeFormat.rxStx : Statement .rxStx := fun _ => rfl

theorem EncodeFormat.rxEtx : Statement .rxEtx := fun _ => rfl

theorem EncodeFormat.rxIdle (b : Byte) : Statement (.rxIdle b) := fun _ => rfl

theorem EncodeFormat.rxData (b : Byte) : Statement (.rxData b) := fun _ => rfl

theorem EncodeFormat.rxOvf (b : Byte) : Statement (.rxOvf b) := fun _ => rfl

theorem EncodeFormat.rxbyte (b : Byte) : Statement (.rxbyte b) := fun _ => rfl

theorem EncodeFormat.frameHandle (body : Text) : Statement (.frameHandle body) := fun _ => rfl

theorem EncodeFormat.decode (body : Text) : Statement (.decode body) := fun _ => rfl

theorem EncodeFormat.xor8 (s : Text) : Statement (.xor8 s) := fun _ => rfl

theorem EncodeFormat.chkGen (payload : Text) : Statement (.chkGen payload) := fun _ => rfl

theorem EncodeFormat.chkVal (input field : Text) : Statement (.chkVal input field) := fun _ => rfl

theorem EncodeFormat.encode (type node : Text) (seq : Byte) (data : Text) : Statement (.encode type node seq data) := fun _ => rfl

theorem EncodeFormat.send (type : Text) (seq : Byte) (data : Text) : Statement (.send type seq data) := fun _ => rfl

theorem EncodeFormat.litTxTooLong : Statement .litTxTooLong := fun _ => rfl

theorem EncodeFormat.litFrmTooLong : Statement .litFrmTooLong := fun _ => rfl

theorem EncodeFormat.dedupAccept (seq : Byte) : Statement (.dedupAccept seq) := fun _ => rfl

theorem EncodeFormat.cmdPing (node : Text) (seq : Option Byte) : Statement (.cmdPing node seq) := fun _ => rfl

theorem EncodeFormat.cmdStatus (node : Text) (seq : Option Byte) : Statement (.cmdStatus node seq) := fun _ => rfl

theorem EncodeFormat.cmdSetroute (node : Text) (seq : Option Byte) (value : Text) : Statement (.cmdSetroute node seq value) := fun _ => rfl

theorem EncodeFormat.cmdSeteta (node : Text) (seq : Option Byte) (value : Text) : Statement (.cmdSeteta node seq value) := fun _ => rfl

theorem EncodeFormat.cmdUnknown (node : Text) (seq : Option Byte) (data : Text) : Statement (.cmdUnknown node seq data) := fun _ => rfl

theorem EncodeFormat.typeOther (type node : Text) (seq : Option Byte) (data : Text) : Statement (.typeOther type node seq data) := fun _ => rfl

theorem EncodeFormat.errFormat : Statement .errFormat := fun _ => rfl

theorem EncodeFormat.errChk : Statement .errChk := fun _ => rfl

theorem EncodeFormat.errRxOverflow : Statement .errRxOverflow := fun _ => rfl

theorem EncodeFormat.poll (now : U32) : Statement (.poll now) := fun _ => rfl

theorem EncodeFormat.tmrDue (now last interval : U32) : Statement (.tmrDue now last interval) := fun _ => rfl

theorem EncodeFormat.txseqAlloc : Statement .txseqAlloc := fun _ => rfl

theorem EncodeFormat.tlmHb : Statement .tlmHb := fun _ => rfl

theorem EncodeFormat.tlmArr : Statement .tlmArr := fun _ => rfl

theorem EncodeFormat.tlmDl : Statement .tlmDl := fun _ => rfl

theorem EncodeFormat.reset : Statement .reset := fun _ => rfl

end Sys2Proof.Laws
end

