-- ==== Sys2Proof/Tests/Slice0.lean ====
section
/-! SUPPORT. Tests. Expected values come from spec/95_test_vectors.md (its ids stand in the docstrings) or from the rules
by hand; each test is about one step or one operation. The second half shows, for every statement with hypotheses, a concrete
state and operands that meet them. -/

namespace Sys2Proof.Tests

open Sys2Proof.Machine

-- The theorems are checked one after another: checked all at once they would take more memory than the check allows.
set_option Elab.async false

/-- The ASCII codes of a text. -/
def ascii (s : String) : Text :=
  s.toList.map fun c => BitVec.ofNat 8 c.toNat

/-- A framed output, given its body as text. -/
def frame (body : String) : Text :=
  [0x02] ++ ascii body ++ [0x03]

/-- The next state, where there is one. -/
def next? (o : Host.Outcome State Fault Refusal) : Option State :=
  match o with
  | .next t => some t
  | .fault _ => none
  | .refused _ => none

/-- The frames transmitted in the next state. -/
def sent? (o : Host.Outcome State Fault Refusal) : Option (List Text) :=
  (next? o).map (·.tx)

/-- The value returned in the next state. -/
def ret? (o : Host.Outcome State Fault Refusal) : Option Ret :=
  (next? o).map (·.ret)

/-- A legacy configuration. -/
def legacyCfg : Config := { cfgRef with seqAware := false, unknownTypeReply := true }

/-- The reset state. -/
def s0 : State := State.reset

/-- The reset state of a legacy node that answers unknown types. -/
def legacy : State := State.resetOf legacyCfg

/-- Inside a frame, `n` bytes `A` stored. -/
def inFrame (n : Nat) : State := { State.reset with receiving := true, rxBuf := List.replicate n 0x41 }

/-- Inside a frame, a body stored and its end delimiter pending. -/
def closing (s : State) (body : String) : State :=
  { s with receiving := true, rxBuf := ascii body, pending := [.rxbyte 0x03] }

/-! The fixed texts against their characters. -/

theorem test_texts_types :
    [txtCmd, txtAck, txtStatus, txtErr, txtHb, txtArr, txtDl] =
      ["CMD", "ACK", "STATUS", "ERR", "HB", "ARR", "DL"].map ascii := by decide +kernel

theorem test_texts_commands :
    [txtPing, txtSetroute, txtSeteta, txtPong, txtRouteSet, txtEtaSet] =
      ["PING", "SETROUTE=", "SETETA=", "PONG", "ROUTE_SET", "ETA_SET"].map ascii := by decide +kernel

theorem test_texts_reasons :
    [txtUnknownCmd, txtUnknownType, txtFormat, txtChk, txtRxOverflow, txtTxTooLong, txtFrmTooLong] =
      ["UNKNOWN_CMD", "UNKNOWN_TYPE", "FORMAT", "CHK", "RX_OVERFLOW", "TX_TOO_LONG", "FRM_TOO_LONG"].map ascii := by
  decide +kernel

theorem test_texts_payloads :
    [txtOk, txtFiveMin, txtNodeEq, txtRouteEq, txtCommaRouteEq, txtCommaStopEq, txtCommaEtaEq] =
      ["OK", "+5MIN", "node=", "route=", ",route=", ",stop=", ",eta="].map ascii := by decide +kernel

theorem test_texts_names :
    [nameRxbyte, namePoll, nameReset, nameFrameHandle, nameDecode, nameXor8, nameChkGen, nameChkVal, nameEncode, nameSend,
        nameDedupAccept, nameTmrDue, nameTxseqAlloc] =
      ["RXBYTE", "POLL", "RESET", "FRAME.HANDLE", "DECODE", "xor8", "CHK.GEN", "CHK.VAL", "ENCODE", "SEND", "DEDUP.ACCEPT",
        "TMR.DUE", "TXSEQ.ALLOC"].map ascii := by decide +kernel

theorem test_config_texts :
    [cfgRef.nodeId, cfgRef.stopId, cfgRef.routeInit, [FS]] = ["NODE01", "STOP01", "R1", "|"].map ascii := by decide +kernel

/-! WellFormed: a term that each check refuses. -/

theorem test_wf_reference : cfgRef.wf = true ∧ legacyCfg.wf = true := by decide

/-- R8 item 1: a delimiter in one of the three identities. -/
theorem test_wf_refuses_delimiter :
    Config.wf { cfgRef with nodeId := [0x4E, 0x02] } = false ∧ Config.wf { cfgRef with stopId := [0x03] } = false ∧
      Config.wf { cfgRef with routeInit := [0x02] } = false := by decide

/-- R8 item 2: a field delimiter in `NODE_ID`, but not in the others. -/
theorem test_wf_refuses_fs_in_node :
    Config.wf { cfgRef with nodeId := [0x7C] } = false ∧ Config.wf { cfgRef with stopId := [0x7C] } = true := by decide

/-- R8 item 3. -/
theorem test_wf_refuses_long_route :
    Config.wf { cfgRef with routeCap := 1 } = false ∧ Config.wf { cfgRef with routeCap := 2 } = true := by decide

/-- R8 item 5: 30 and 28 bytes are the longer literal frame of `NODE01`. -/
theorem test_wf_refuses_small_tx :
    Config.wf { cfgRef with txCap := 29 } = false ∧ Config.wf { cfgRef with txCap := 30 } = true ∧
      Config.wf { legacyCfg with txCap := 27 } = false ∧ Config.wf { legacyCfg with txCap := 28 } = true := by decide

/-- R8 item 6. -/
theorem test_wf_refuses_no_buffer :
    Config.wf { cfgRef with rxCap := 0 } = false ∧ Config.wf { cfgRef with rxCap := 1 } = true := by decide

theorem test_wf_refuses_excluded_bytes :
    Instr.wf cfgRef (.rxIdle 0x02) = false ∧ Instr.wf cfgRef (.rxIdle 0x03) = true ∧
      Instr.wf cfgRef (.rxData 0x02) = false ∧ Instr.wf cfgRef (.rxData 0x03) = false ∧
      Instr.wf cfgRef (.rxOvf 0x02) = false ∧ Instr.wf cfgRef (.rxOvf 0x03) = false := by decide

theorem test_wf_refuses_bodies :
    Instr.wf cfgRef (.frameHandle [0x41, 0x03]) = false ∧ Instr.wf cfgRef (.decode [0x02]) = false ∧
      Instr.wf cfgRef (.frameHandle (List.replicate 65 0x41)) = false ∧
      Instr.wf cfgRef (.decode (List.replicate 65 0x41)) = false ∧
      Instr.wf cfgRef (.frameHandle (List.replicate 64 0x41)) = true := by decide

theorem test_wf_refuses_nodes :
    Instr.wf cfgRef (.cmdPing [0x7C] (some 7)) = false ∧ Instr.wf cfgRef (.cmdStatus [0x02] (some 7)) = false ∧
      Instr.wf cfgRef (.cmdSetroute [0x7C] (some 7) []) = false ∧ Instr.wf cfgRef (.cmdSeteta [0x03] (some 7) []) = false ∧
      Instr.wf cfgRef (.cmdUnknown [0x7C] (some 7) []) = false ∧ Instr.wf cfgRef (.typeOther [] [0x7C] (some 7) []) = false := by
  decide

theorem test_wf_refuses_seq_presence :
    Instr.wf cfgRef (.cmdPing [] none) = false ∧ Instr.wf legacyCfg (.cmdPing [] (some 7)) = false ∧
      Instr.wf cfgRef (.cmdStatus [] none) = false ∧ Instr.wf cfgRef (.cmdSetroute [] none []) = false ∧
      Instr.wf cfgRef (.cmdSeteta [] none []) = false ∧ Instr.wf cfgRef (.cmdUnknown [] none []) = false ∧
      Instr.wf cfgRef (.typeOther [] [] none []) = false := by decide

theorem test_wf_refuses_data :
    Instr.wf cfgRef (.cmdSetroute [] (some 7) [0x03]) = false ∧ Instr.wf cfgRef (.cmdSeteta [] (some 7) [0x02]) = false ∧
      Instr.wf cfgRef (.cmdUnknown [] (some 7) [0x02]) = false ∧ Instr.wf cfgRef (.cmdUnknown [] (some 7) txtPing) = false ∧
      Instr.wf cfgRef (.typeOther [] [] (some 7) [0x03]) = false ∧ Instr.wf cfgRef (.typeOther txtCmd [] (some 7) []) = false ∧
      Instr.wf cfgRef (.typeOther [0x7C] [] (some 7) []) = false := by decide

/-! Decoding: every constructor from a word written out from the table. -/

/-- `decode` in the reference context. -/
def dec? (c : Code) : Option Instr := (decode refCtx c).toOption

/-- `decode` inside a frame. -/
def decIn? (full : Bool) (b : Byte) : Option Instr :=
  (decode { refCtx with receiving := true, rxFull := full } (.byte b)).toOption

theorem test_decode_rxStx : dec? (.byte 0b00000010) = some .rxStx ∧ decIn? true 0b00000010 = some .rxStx := by decide

theorem test_decode_rxEtx : decIn? false 0b00000011 = some .rxEtx ∧ decIn? true 0b00000011 = some .rxEtx := by decide

theorem test_decode_rxIdle : dec? (.byte 0b00000011) = some (.rxIdle 3) ∧ dec? (.byte 0xFF) = some (.rxIdle 0xFF) := by decide

theorem test_decode_rxData : decIn? false 0x7C = some (.rxData 0x7C) ∧ decIn? false 0x00 = some (.rxData 0) := by decide

theorem test_decode_rxOvf : decIn? true 0x41 = some (.rxOvf 0x41) := by decide

theorem test_decode_rxbyte : dec? (.call (ascii "RXBYTE") [.byte 0x41]) = some (.rxbyte 0x41) := by decide +kernel

theorem test_decode_frameHandle :
    dec? (.call (ascii "FRAME.HANDLE") [.text [0x41]]) = some (.frameHandle [0x41]) := by decide +kernel

theorem test_decode_decode : dec? (.call (ascii "DECODE") [.text [0x41]]) = some (.decode [0x41]) := by decide +kernel

theorem test_decode_xor8 : dec? (.call (ascii "xor8") [.text [0x41]]) = some (.xor8 [0x41]) := by decide +kernel

theorem test_decode_chkGen : dec? (.call (ascii "CHK.GEN") [.text [0x41]]) = some (.chkGen [0x41]) := by decide +kernel

theorem test_decode_chkVal :
    dec? (.call (ascii "CHK.VAL") [.text [0x41], .text [0x42]]) = some (.chkVal [0x41] [0x42]) := by decide +kernel

theorem test_decode_encode :
    dec? (.call (ascii "ENCODE") [.text [0x41], .text [0x42], .byte 7, .text [0x43]]) =
      some (.encode [0x41] [0x42] 7 [0x43]) := by decide +kernel

theorem test_decode_send :
    dec? (.call (ascii "SEND") [.text [0x41], .byte 7, .text [0x43]]) = some (.send [0x41] 7 [0x43]) := by decide +kernel

theorem test_decode_dedupAccept : dec? (.call (ascii "DEDUP.ACCEPT") [.byte 7]) = some (.dedupAccept 7) := by decide +kernel

theorem test_decode_poll : dec? (.call (ascii "POLL") [.word 5000]) = some (.poll 5000) := by decide +kernel

theorem test_decode_tmrDue :
    dec? (.call (ascii "TMR.DUE") [.word 1, .word 2, .word 3]) = some (.tmrDue 1 2 3) := by decide +kernel

theorem test_decode_txseqAlloc : dec? (.call (ascii "TXSEQ.ALLOC") []) = some .txseqAlloc := by decide +kernel

theorem test_decode_reset : dec? (.call (ascii "RESET") []) = some .reset := by decide +kernel

/-- X7. -/
theorem test_decode_cmdPing :
    dec? (.frameIn (ascii "CMD|HOST|7|PING|11")) = some (.cmdPing (ascii "HOST") (some 7)) := by decide +kernel

/-- X8. -/
theorem test_decode_cmdStatus :
    dec? (.frameIn (ascii "CMD|HOST|9|STATUS|1B")) = some (.cmdStatus (ascii "HOST") (some 9)) := by decide +kernel

/-- DC13. -/
theorem test_decode_cmdSetroute :
    dec? (.frameIn (ascii "CMD|HOST|7|SETROUTE=A|B|58")) =
      some (.cmdSetroute (ascii "HOST") (some 7) (ascii "A|B")) := by decide +kernel

/-- X8. -/
theorem test_decode_cmdSeteta :
    dec? (.frameIn (ascii "CMD|HOST|8|SETETA=12|22")) =
      some (.cmdSeteta (ascii "HOST") (some 8) (ascii "12")) := by decide +kernel

/-- DC14. -/
theorem test_decode_cmdUnknown :
    dec? (.frameIn (ascii "CMD|HOST|7||01")) = some (.cmdUnknown (ascii "HOST") (some 7) []) := by decide +kernel

/-- DC16. -/
theorem test_decode_typeOther :
    dec? (.frameIn (ascii "|HOST|7|PING|5B")) =
      some (.typeOther [] (ascii "HOST") (some 7) (ascii "PING")) := by decide +kernel

theorem test_decode_litTxTooLong : dec? (.frameOut (frame "ERR|NODE01|0|TX_TOO_LONG|5A")) = some .litTxTooLong := by
  decide +kernel

theorem test_decode_litFrmTooLong : dec? (.frameOut (frame "ERR|NODE01|0|FRM_TOO_LONG|0F")) = some .litFrmTooLong := by
  decide +kernel

/-- FA5. -/
theorem test_decode_errFormat : dec? (.frameOut (frame "ERR|NODE01|0|FORMAT|0B")) = some .errFormat := by decide +kernel

/-- X9. -/
theorem test_decode_errChk : dec? (.frameOut (frame "ERR|NODE01|0|CHK|48")) = some .errChk := by decide +kernel

/-- X4. -/
theorem test_decode_errRxOverflow : dec? (.frameOut (frame "ERR|NODE01|0|RX_OVERFLOW|41")) = some .errRxOverflow := by
  decide +kernel

/-- X6. -/
theorem test_decode_tlmHb : dec? (.frameOut (frame "HB|NODE01|254|OK|40")) = some .tlmHb := by decide +kernel

/-- X6. -/
theorem test_decode_tlmArr :
    dec? (.frameOut (frame "ARR|NODE01|2|route=R1,stop=STOP01,eta=0|68")) = some .tlmArr := by decide +kernel

/-- P2. -/
theorem test_decode_tlmDl : dec? (.frameOut (frame "DL|NODE01|6|+5MIN|17")) = some .tlmDl := by decide +kernel

/-- DC2, DC4 and X7: rejections by name. -/
theorem test_decode_rejects :
    decode refCtx (.frameIn (ascii "PING")) = .error .bodyFormat ∧
      decode refCtx (.frameIn (ascii "||")) = .error .bodyChecksum ∧
      decode refCtx (.frameOut (ascii "HB")) = .error .frameDelimiters ∧
      decode refCtx (.frameOut (frame "ACK|NODE01|7|PONG|15")) = .error .frameRow ∧
      decode refCtx (.frameOut (frame "CMD|HOST|7|PING|11")) = .error .frameNode ∧
      decode refCtx (.call [] []) = .error .callName ∧
      decode refCtx (.call (ascii "POLL") []) = .error .callOperands := by decide +kernel

/-- The table's byte words, and where a step finds them. -/
theorem test_table_words :
    decodeTableWord 8 0x02 = some .rxStx ∧ decodeTableWord 8 0x03 = some .rxEtx ∧ decodeTableWord 8 0x00 = some (.rxIdle 0) ∧
      next? (step (s0.withFetchWord 8 0x02)) = next? (endEvent (exec .rxStx s0)) ∧
      next? (step (s0.withFetchWord 8 0x03)) = next? (endEvent (exec .rxEtx { s0 with receiving := true })) := by
  decide +kernel

/-! The frame assembler. -/

/-- FA4. -/
theorem test_rxStx : next? (exec .rxStx (inFrame 2)) = some (inFrame 0) := by decide +kernel

/-- FA5. -/
theorem test_rxEtx_empty :
    next? (exec .rxEtx (inFrame 0)) =
      some { s0 with txSeq := 1, tx := [frame "ERR|NODE01|0|FORMAT|0B"] } := by decide +kernel

/-- X7, at its last byte. -/
theorem test_rxEtx_ping :
    next? (exec .rxEtx { s0 with receiving := true, rxBuf := ascii "CMD|HOST|7|PING|11" }) =
      some { s0 with lastHostSeq := 7, tx := [frame "ACK|NODE01|7|PONG|15"] } := by decide +kernel

/-- FA7. -/
theorem test_rxIdle : next? (exec (.rxIdle 0x03) s0) = some s0 := by decide +kernel

/-- FA11, before its last byte: the last free place. -/
theorem test_rxData : next? (exec (.rxData 0x41) (inFrame 63)) = some (inFrame 64) := by decide +kernel

/-- The write beyond `RXBUF` stops. -/
theorem test_rxData_full : next? (exec (.rxData 0x41) (inFrame 64)) = none := by decide +kernel

/-- FA12. -/
theorem test_rxOvf :
    next? (exec (.rxOvf 0x41) (inFrame 64)) =
      some { s0 with txSeq := 1, tx := [frame "ERR|NODE01|0|RX_OVERFLOW|41"] } := by decide +kernel

/-- FA11: a start delimiter into a full buffer is no overflow; FA12: a data byte is. -/
theorem test_rxbyte_full :
    next? (exec (.rxbyte 0x02) (inFrame 64)) = some (inFrame 0) ∧
      next? (exec (.rxbyte 0x41) (inFrame 64)) = next? (exec (.rxOvf 0x41) (inFrame 64)) := by decide +kernel

/-- FA3, FA7. -/
theorem test_rxbyte_data_and_idle :
    next? (exec (.rxbyte 0x41) (inFrame 0)) = some (inFrame 1) ∧ next? (exec (.rxbyte 0x03) s0) = some s0 := by
  decide +kernel

/-! Frame handling. -/

/-- X3, third row: a mismatch before the field count; the number comes from `tx_seq`. -/
theorem test_frameHandle_mismatch :
    next? (exec (.frameHandle (ascii "A|00")) { s0 with txSeq := 255 }) =
      some { s0 with txSeq := 0, tx := [frame "ERR|NODE01|255|CHK|4A"] } := by decide +kernel

/-- X5, steps 1 and 2. -/
theorem test_frameHandle_duplicate :
    sent? (exec (.frameHandle (ascii "CMD|HOST|7|PING|11")) s0) = some [frame "ACK|NODE01|7|PONG|15"] ∧
      sent? (exec (.frameHandle (ascii "CMD|HOST|7|PING|11")) { s0 with lastHostSeq := 7 }) = some [] := by decide +kernel

/-! Checksum and codec. -/

/-- X2. -/
theorem test_xor8 :
    ret? (exec (.xor8 (ascii "CMD|HOST|7|PING")) s0) = some (.byte 0x11) ∧
      ret? (exec (.xor8 []) s0) = some (.byte 0) := by decide +kernel

/-- Section 2.2. -/
theorem test_chkGen :
    ret? (exec (.chkGen (ascii "CMD|HOST|9|STATUS")) s0) = some (.text (ascii "1B")) ∧
      ret? (exec (.chkGen []) s0) = some (.text (ascii "00")) := by decide +kernel

/-- Section 2.2. -/
theorem test_chkVal :
    (["1B", "1b", "01B", "F1B"].map fun f => ret? (exec (.chkVal (ascii "CMD|HOST|9|STATUS") (ascii f)) s0)) =
        List.replicate 4 (some (.bool true)) ∧
      (["1A", "", "1B ", "zz"].map fun f => ret? (exec (.chkVal (ascii "CMD|HOST|9|STATUS") (ascii f)) s0)) =
        List.replicate 4 (some (.bool false)) := by decide +kernel

/-- DC11, DC9. -/
theorem test_decode :
    ret? (exec (.decode (ascii "CMD|HOST|263|PING|11")) s0) =
        some (.message ⟨ascii "CMD", ascii "HOST", some 7, ascii "PING"⟩) ∧
      ret? (exec (.decode (ascii "CMD|HOST|PING|5A")) s0) = some (.decodeError .format) := by decide +kernel

/-- DC21, DC22. -/
theorem test_decode_legacy :
    ret? (exec (.decode (ascii "CMD|HOST|7|PING|11")) legacy) =
        some (.message ⟨ascii "CMD", ascii "HOST", none, ascii "7|PING"⟩) ∧
      ret? (exec (.decode (ascii "CMD|PING|26")) legacy) = some (.decodeError .format) := by decide +kernel

/-- EN10, EN11. -/
theorem test_encode :
    ret? (exec (.encode txtAck (ascii "NODE01") 7 txtPong) s0) = some (.text (frame "ACK|NODE01|7|PONG|15")) ∧
      ret? (exec (.encode txtAck (ascii "NODE01") 7 txtPong) legacy) = some (.text (frame "ACK|NODE01|PONG|5E")) := by
  decide +kernel

/-- EN4, EN5, EN6. -/
theorem test_encode_limits :
    ([47, 51, 52].map fun n => ret? (exec (.encode txtAck (ascii "NODE01") 7 (List.replicate n 0x78)) s0)) =
      [some (.encodeError .frameTooLarge), some (.encodeError .frameTooLarge), some (.encodeError .payloadTooLarge)] := by
  decide +kernel

/-- EN3, EN4, EN6 through `SEND`. -/
theorem test_send :
    ([46, 47, 52].map fun n => (sent? (exec (.send txtAck 7 (List.replicate n 0x78)) s0)).map (·.map List.length)) =
      [some [64], some [30], some [29]] := by decide +kernel

theorem test_literals :
    ret? (exec .litTxTooLong s0) = some (.text (frame "ERR|NODE01|0|TX_TOO_LONG|5A")) ∧
      ret? (exec .litFrmTooLong s0) = some (.text (frame "ERR|NODE01|0|FRM_TOO_LONG|0F")) := by decide +kernel

theorem test_literals_legacy :
    ret? (exec .litTxTooLong legacy) = some (.text (frame "ERR|NODE01|TX_TOO_LONG|16")) ∧
      ret? (exec .litFrmTooLong legacy) = some (.text (frame "ERR|NODE01|FRM_TOO_LONG|43")) := by decide +kernel

/-- Section 2.2: `hexval`. -/
theorem test_hexval :
    ["", "7", "1b", "aB", "FF", "111", "100", "1G", "G1", " 11", "0x11"].map (fun f => hexval (ascii f)) =
      [0x00, 0x07, 0x1B, 0xAB, 0xFF, 0x11, 0x00, 0x00, 0x00, 0x00, 0x00] := by decide +kernel

/-- Section 2.2: `parse_int`. -/
theorem test_parseInt :
    ["", "007", "263", "-5", "+5", "-", "--5", "7x", " 12", "1.5", "-2147483649"].map (fun f => parseInt (ascii f)) =
      [0, 7, 263, -5, 5, 0, 0, 7, 0, 1, -2147483649] := by decide +kernel

/-- Section 2.2: `seq_of_text` and `wrap_i32`. -/
theorem test_wraps :
    ["-5", "263", "99999999999"].map (fun f => seqOfText (ascii f)) = [251, 7, 255] ∧
      ["2147483648", "-2147483649", "99999999999"].map (fun f => (wrapI32 (parseInt (ascii f))).toInt) =
        [-2147483648, 2147483647, 1215752191] := by decide +kernel

/-- Section 2.2: `dec`. -/
theorem test_dec :
    [0, 7, 12, 255, -5].map dec = ["0", "7", "12", "255", "-5"].map ascii := by decide +kernel

/-! Deduplication and commands. -/

/-- Section 2.4, steps 1 and 2: number 0 is new after reset, and then a duplicate. -/
theorem test_dedupAccept :
    next? (exec (.dedupAccept 0) s0) = some { s0 with lastHostSeq := 0, ret := .bool true } ∧
      next? (exec (.dedupAccept 0) { s0 with lastHostSeq := 0 }) =
        some { s0 with lastHostSeq := 0, ret := .bool false } := by decide +kernel

/-- DS1. -/
theorem test_cmdPing :
    next? (exec (.cmdPing (ascii "HOST") (some 7)) s0) = some { s0 with tx := [frame "ACK|NODE01|7|PONG|15"] } := by
  decide +kernel

/-- X8. -/
theorem test_cmdStatus :
    sent? (exec (.cmdStatus (ascii "HOST") (some 9)) { s0 with etaMinutes := 12 }) =
      some [frame "STATUS|NODE01|9|node=NODE01,route=R1,eta=12|05"] := by decide +kernel

/-- DS5, DS4. -/
theorem test_cmdSetroute :
    next? (exec (.cmdSetroute [] (some 7) (ascii "ABCDEFGHIJKLMNOPQRS")) s0) =
        some { s0 with routeId := ascii "ABCDEFGHIJKLMNO", tx := [frame "ACK|NODE01|7|ROUTE_SET|47"] } ∧
      next? (exec (.cmdSetroute [] (some 7) []) s0) =
        some { s0 with routeId := [], tx := [frame "ACK|NODE01|7|ROUTE_SET|47"] } := by decide +kernel

/-- DS9, DS14. -/
theorem test_cmdSeteta :
    next? (exec (.cmdSeteta [] (some 7) (ascii "-5")) s0) =
        some { s0 with etaMinutes := 0xFFFFFFFB, tx := [frame "ACK|NODE01|7|ETA_SET|4E"] } ∧
      next? (exec (.cmdSeteta [] (some 7) (ascii "4294967297")) s0) =
        some { s0 with etaMinutes := 1, tx := [frame "ACK|NODE01|7|ETA_SET|4E"] } := by decide +kernel

/-- DS15. -/
theorem test_cmdUnknown :
    next? (exec (.cmdUnknown [] (some 7) (ascii "REBOOT")) s0) =
      some { s0 with tx := [frame "ERR|NODE01|7|UNKNOWN_CMD|52"] } := by decide +kernel

/-- DS28; P6, event 3. -/
theorem test_typeOther :
    next? (exec (.typeOther txtHb (ascii "HOST") (some 5) txtOk) s0) = some s0 ∧
      sent? (exec (.frameHandle (ascii "HB|HOST|OK|0E")) legacy) = some [frame "ERR|NODE01|UNKNOWN_TYPE|4B"] := by
  decide +kernel

/-- P3: numbers 0, 1 and 2. -/
theorem test_error_replies :
    sent? (exec .errChk s0) = some [frame "ERR|NODE01|0|CHK|48"] ∧
      sent? (exec .errRxOverflow { s0 with txSeq := 1 }) = some [frame "ERR|NODE01|1|RX_OVERFLOW|40"] ∧
      next? (exec .errFormat { s0 with txSeq := 2 }) =
        some { s0 with txSeq := 3, tx := [frame "ERR|NODE01|2|FORMAT|09"] } := by decide +kernel

/-! Timers. -/

/-- P5, events 1 and 2: the clock does not fire early. -/
theorem test_tmrDue :
    ret? (exec (.tmrDue 4294964999 4294960000 5000) s0) = some (.bool false) ∧
      ret? (exec (.tmrDue 4294965000 4294960000 5000) s0) = some (.bool true) := by decide +kernel

/-- P5, event 3: across the wrap of the clock. -/
theorem test_tmrDue_wrap :
    ret? (exec (.tmrDue 2704 4294965000 5000) s0) = some (.bool true) ∧
      ret? (exec (.tmrDue 2703 4294965000 5000) s0) = some (.bool false) := by decide +kernel

theorem test_txseqAlloc :
    next? (exec .txseqAlloc { s0 with txSeq := 255 }) = some { s0 with txSeq := 0, ret := .byte 255 } := by decide +kernel

/-- X6; P2. -/
theorem test_telemetry :
    sent? (exec .tlmHb { s0 with txSeq := 254 }) = some [frame "HB|NODE01|254|OK|40"] ∧
      sent? (exec .tlmArr { s0 with txSeq := 3, routeId := ascii "42A", etaMinutes := 0xFFFFFFFD }) =
        some [frame "ARR|NODE01|3|route=42A,stop=STOP01,eta=-3|63"] ∧
      next? (exec .tlmDl { s0 with txSeq := 6 }) =
        some { s0 with txSeq := 7, tx := [frame "DL|NODE01|6|+5MIN|17"] } := by decide +kernel

/-- P5, event 6: all three, in order. -/
theorem test_poll :
    next? (exec (.poll 22704) { s0 with txSeq := 3, lastFireHb := 7704, lastFireArr := 2704, lastFireDl := 4294960000 }) =
      some { s0 with txSeq := 6, lastFireHb := 22704, lastFireArr := 22704, lastFireDl := 22704,
                     tx := [frame "HB|NODE01|3|OK|40", frame "ARR|NODE01|4|route=R1,stop=STOP01,eta=0|6E",
                            frame "DL|NODE01|5|+5MIN|14"] } := by decide +kernel

/-- P7, event 4. -/
theorem test_reset :
    next? (exec .reset { inFrame 15 with lastHostSeq := 9, txSeq := 1, lastFireHb := 5000, etaMinutes := 4 }) = some s0 := by
  decide +kernel

/-- R305: with nothing pending a step changes nothing. -/
theorem test_step_quiet : next? (step s0) = some s0 := by decide +kernel

/-! For every statement with hypotheses: a concrete state and operands that meet them, clause by clause. -/

/-- The reset state with one event pending. -/
def due (e : Event) (s : State) : State := { s with pending := [e] }

theorem witness_StepRunsTheDecodedEvent :
    s0.pending = [] ∧ (due (.rxbyte 2) s0).pending = .rxbyte 2 :: [] ∧
      decode (due (.rxbyte 2) s0).ctx (eventCode (.rxbyte 2)) = .ok .rxStx ∧
      decode (due (.rxbyte 3) s0).ctx (eventCode (.rxbyte 3)) = .ok (.rxIdle 3) ∧
      decode (due (.rxbyte 3) (inFrame 64)).ctx (eventCode (.rxbyte 3)) = .ok .rxEtx ∧
      decode (due (.rxbyte 4) (inFrame 63)).ctx (eventCode (.rxbyte 4)) = .ok (.rxData 4) ∧
      decode (due (.rxbyte 4) (inFrame 64)).ctx (eventCode (.rxbyte 4)) = .ok (.rxOvf 4) ∧
      decode (due (.poll 5000) s0).ctx (eventCode (.poll 5000)) = .ok (.poll 5000) ∧
      decode (due .reset s0).ctx (eventCode .reset) = .ok .reset := by decide +kernel

/-- A state in the middle of a run: a frame sent, a number accepted, a body complete. -/
def busy : State :=
  { closing s0 "CMD|HOST|7|PING|11" with tx := [frame "HB|NODE01|0|OK|43"], txSeq := 1, lastHostSeq := 6 }

theorem busy_inv : busy.inv := by
  refine ⟨⟨by decide +kernel, by decide +kernel, by decide +kernel⟩, ⟨by decide +kernel, by decide +kernel⟩,
    ⟨by decide +kernel, by decide +kernel⟩, ?_, rfl⟩
  intro f hf
  have e : f = frame "HB|NODE01|0|OK|43" := by simpa [busy] using hf
  exact ⟨txtHb, 0, txtOk, by decide +kernel, by rw [e]; decide +kernel, by decide +kernel⟩

theorem witness_EveryStepKeepsTheInvariant :
    busy.cfg.wf = true ∧ busy.inv ∧ ∃ t, step busy = .next t ∧ t.tx.length = 2 :=
  ⟨by decide +kernel, busy_inv, _, rfl, by decide +kernel⟩

theorem witness_ResetEstablishesTheInvariant : cfgRef.wf = true ∧ legacyCfg.wf = true := by decide +kernel

theorem witness_StepKeepsConfigurationAndAppendsToTheLog :
    (∃ t, step s0 = .next t ∧ s0.pending = []) ∧
      (∃ t, step busy = .next t ∧ busy.pending = .rxbyte 3 :: [] ∧ t.tx.length = 2) ∧
      (∃ t, step (due (.poll 30000) s0) = .next t ∧ (due (.poll 30000) s0).pending = .poll 30000 :: [] ∧ t.tx.length = 3) ∧
      ∃ t, step (due .reset s0) = .next t ∧ (due .reset s0).pending = .reset :: [] :=
  ⟨⟨_, rfl, by decide +kernel⟩, ⟨_, rfl, by decide +kernel, by decide +kernel⟩,
    ⟨_, rfl, by decide +kernel, by decide +kernel⟩, ⟨_, rfl, by decide +kernel⟩⟩

/-- The context of a state inside a frame. -/
def ctxIn (full : Bool) : Ctx := { refCtx with receiving := true, rxFull := full }

theorem witness_DecodeOfEncodeGivesTheInstruction :
    ([(refCtx, Instr.rxStx), (ctxIn true, .rxEtx), (refCtx, .rxIdle 3), (ctxIn false, .rxData 4), (ctxIn true, .rxOvf 1),
        (refCtx, .frameHandle (List.replicate 64 0x41)), (refCtx, .cmdPing [] (some 255)),
        (refCtx, .cmdUnknown [] (some 0) []), (refCtx, .typeOther [] [] (some 0) [0x7C]),
        ({ refCtx with cfg := legacyCfg }, .cmdSetroute [0x41] none [0x7C]), (refCtx, .litTxTooLong), (refCtx, .tlmArr)].all
      fun p => p.1.cfg.wf && p.2.wf p.1.cfg && p.2.selectableIn p.1) = true := by decide +kernel

theorem witness_EveryByteDecodesToOneAdmittedRow :
    (Instr.rxOvf 4).format = .byte ∧ (Instr.rxOvf 4).wf (ctxIn true).cfg = true ∧
      (Instr.rxOvf 4).selectableIn (ctxIn true) = true ∧ encode (ctxIn true) (.rxOvf 4) = .byte 4 := by decide +kernel

/-- Bodies of every row, with the message each decodes to. -/
theorem witness_BodySelectsItsRow :
    decodeBody refCtx.cfg (ascii "|HOST|7|PING|5B") = .ok ⟨[], ascii "HOST", some 7, txtPing⟩ ∧ ([] : Text) ≠ txtCmd ∧
      decodeBody refCtx.cfg (ascii "CMD|HOST|7|PING|11") = .ok ⟨txtCmd, ascii "HOST", some 7, txtPing⟩ ∧
      decodeBody refCtx.cfg (ascii "CMD|HOST|9|STATUS|1B") = .ok ⟨txtCmd, ascii "HOST", some 9, txtStatus⟩ ∧
      decodeBody refCtx.cfg (ascii "CMD|HOST|7|SETROUTE=A|B|58") =
        .ok ⟨txtCmd, ascii "HOST", some 7, txtSetroute ++ ascii "A|B"⟩ ∧
      decodeBody refCtx.cfg (ascii "CMD|HOST|8|SETETA=12|22") =
        .ok ⟨txtCmd, ascii "HOST", some 8, txtSeteta ++ ascii "12"⟩ ∧
      decodeBody refCtx.cfg (ascii "CMD|HOST|7||01") = .ok ⟨txtCmd, ascii "HOST", some 7, []⟩ ∧
      ([] : Text) ≠ txtPing ∧ ([] : Text) ≠ txtStatus ∧ ¬ txtSetroute <+: ([] : Text) ∧ ¬ txtSeteta <+: ([] : Text) := by
  decide +kernel

theorem witness_ByteRunsExactlyOneOperation : busy.receiving = true ∧ (0x03 : Byte) = 0x03 := by decide +kernel

theorem witness_StartDelimiterRestartsTheAssembler :
    (due (.rxbyte 0x02) (inFrame 64)).pending = .rxbyte 0x02 :: [] := by decide +kernel

theorem witness_EndDelimiterHandsOverTheBody : (inFrame 0).receiving = true ∧ busy.receiving = true := by decide +kernel

theorem witness_DataByteIsStoredAtTheEnd :
    (inFrame 63).rxBuf.length < (inFrame 63).cfg.rxCap ∧ (inFrame 63).receiving = true ∧ (0x04 : Byte) ≠ 0x02 ∧
      (0x04 : Byte) ≠ 0x03 := by decide +kernel

theorem witness_DataByteOnAFullBufferStops : (inFrame 64).cfg.rxCap ≤ (inFrame 64).rxBuf.length := by decide +kernel

theorem witness_OverflowResetsAndReports :
    (0x04 : Byte) ≠ 0x02 ∧ (0x04 : Byte) ≠ 0x03 ∧ (inFrame 64).receiving = true ∧
      (inFrame 64).rxBuf.length = (inFrame 64).cfg.rxCap := by decide +kernel

theorem witness_ByteOutsideAFrameIsDropped : s0.receiving = false ∧ (0x03 : Byte) ≠ 0x02 := by decide +kernel

/-- A frame of `n` bytes `A` pending, in the middle of another. -/
def arriving (n : Nat) : State :=
  { inFrame 5 with pending := .rxbyte 0x02 :: (delivers (List.replicate n 0x41) ++ .rxbyte 0x03 :: [.reset]) }

theorem witness_FrameIsDeliveredWhole :
    ([0, 64].all fun n => (arriving n).pending =
        .rxbyte 0x02 :: (delivers (List.replicate n 0x41) ++ .rxbyte 0x03 :: [.reset]) ∧
      noDelims (List.replicate n 0x41) = true ∧ (List.replicate n (0x41 : Byte)).length ≤ (arriving n).cfg.rxCap) = true := by
  decide +kernel

theorem witness_OversizedFrameIsReportedOnce :
    (arriving 65).pending = .rxbyte 0x02 :: (delivers (List.replicate 65 0x41) ++ .rxbyte 0x03 :: [.reset]) ∧
      noDelims (List.replicate 65 0x41) = true ∧
      (arriving 65).cfg.rxCap < (List.replicate 65 (0x41 : Byte)).length := by decide +kernel

theorem witness_NoiseOutsideFramesChangesNothing :
    ({ s0 with pending := delivers [0x03, 0x41] ++ [.poll 1] } : State).pending = delivers [0x03, 0x41] ++ [.poll 1] ∧
      s0.receiving = false ∧ s0.ret = .none ∧ (0x02 : Byte) ∉ ([0x03, 0x41] : Text) := by decide +kernel

theorem witness_Xor8Laws : (ascii "AB").Perm (ascii "BA") ∧ (0x41 : Byte) ≠ 0x42 := by decide +kernel

theorem witness_ChecksumFieldIsComparedAsANumber :
    hexNumber (ascii "111") = some 0x111 ∧ hexNumber [] = some 0 ∧ hexNumber (ascii "1G") = none := by decide +kernel

/-- DC2; DC8; DC9; DC13; DC24: each case of `DECODE` has a body. -/
theorem witness_DecodeByCases :
    FS ∉ ascii "PING" ∧
      ascii "CMD|HOST|7|PING|10" = ascii "CMD|HOST|7|PING" ++ FS :: ascii "10" ∧ FS ∉ ascii "10" ∧
      xor8 (ascii "CMD|HOST|7|PING") ≠ hexval (ascii "10") ∧
      xor8 (ascii "CMD|HOST|PING") = hexval (ascii "5A") ∧ (ascii "CMD|HOST|PING").count FS < 3 ∧
      s0.cfg.seqAware = true ∧ xor8 (ascii "CMD|HOST|7|SETROUTE=A|B") = hexval (ascii "58") ∧
      ascii "CMD|HOST|7|SETROUTE=A|B" = ascii "CMD" ++ [FS] ++ ascii "HOST" ++ [FS] ++ ascii "7|SETROUTE=A|B" ∧
      ascii "7|SETROUTE=A|B" = ascii "7" ++ [FS] ++ ascii "SETROUTE=A|B" ∧
      FS ∉ ascii "CMD" ∧ FS ∉ ascii "HOST" ∧ FS ∉ ascii "7" ∧
      legacy.cfg.seqAware = false ∧ xor8 (ascii "CMD|HOST|SETROUTE=A|B") = hexval (ascii "13") ∧
      ascii "CMD|HOST|SETROUTE=A|B" = ascii "CMD" ++ [FS] ++ ascii "HOST" ++ [FS] ++ ascii "SETROUTE=A|B" := by
  decide +kernel

/-- X3, third row. -/
theorem witness_MismatchComesBeforeTheFieldCount : FS ∉ ascii "00" ∧ xor8 (ascii "A") ≠ hexval (ascii "00") := by
  decide +kernel

/-- EN3 to EN6: payloads at the limits of both checks. -/
theorem witness_EncodeByCases :
    ([(46, 59), (47, 60), (51, 64), (52, 65)].all fun x =>
      (txtAck ++ [FS] ++ ascii "NODE01" ++ [FS] ++ decSeq 7 ++ [FS] ++ List.replicate x.1 0x78).length = x.2) = true := by
  decide +kernel

theorem witness_LiteralErrorFrames : s0.cfg.wf = true ∧ legacy.cfg.wf = true := by decide +kernel

/-- The meaning of `ENCODE` as an equation, from what it returns. -/
theorem encode_next (s : State) (type node : Text) (seq : Byte) (data : Text) (r : Ret)
    (h : encodeRet (encodeFrame s.cfg type node seq data) = r) :
    exec (.encode type node seq data) s = .next { s with ret := r } := by
  rw [← h]; rfl

theorem witness_DecodeReadsBackWhatEncodeFrames :
    FS ∉ txtCmd ∧ FS ∉ ascii "HOST" ∧
      exec (.encode txtCmd (ascii "HOST") 7 (ascii "SETROUTE=A|B")) s0 =
        .next { s0 with ret := .text (frame "CMD|HOST|7|SETROUTE=A|B|58") } :=
  ⟨by decide +kernel, by decide +kernel, encode_next _ _ _ _ _ _ (by decide +kernel)⟩

theorem witness_DedupComparesAndStores :
    ({ s0 with lastHostSeq := 255 } : State).lastHostSeq.toNat = (255 : Byte).toNat ∧
      s0.lastHostSeq.toNat ≠ (0 : Byte).toNat := by decide +kernel

/-- X5: the bodies of its three frames. -/
theorem witness_RepeatedCommandIsDroppedAndTheNextAnswered :
    s0.cfg.seqAware = true ∧
      decodeBody s0.cfg (ascii "CMD|HOST|7|PING|11") = .ok ⟨txtCmd, ascii "HOST", some 7, txtPing⟩ ∧
      decodeBody s0.cfg (ascii "CMD|HOST|8|PING|1E") = .ok ⟨txtCmd, ascii "HOST", some 8, txtPing⟩ ∧ (8 : Byte) ≠ 7 := by
  decide +kernel

theorem witness_WatermarkChangesOnlyOnAcceptanceOrReset :
    (∃ t, step busy = .next t ∧ t.lastHostSeq ≠ busy.lastHostSeq) ∧
      ∃ t, step (due .reset busy) = .next t ∧ t.lastHostSeq ≠ (due .reset busy).lastHostSeq :=
  ⟨⟨_, rfl, by decide +kernel⟩, ⟨_, rfl, by decide +kernel⟩⟩

/-- The meaning of `DECODE` as an equation, from what it returns. -/
theorem decode_next (s : State) (f : Text) (r : Ret) (h : decodeRet (decodeBody s.cfg f) = r) :
    exec (.decode f) s = .next { s with ret := r } := by
  rw [← h]; rfl

theorem witness_FrameHandlingOrder_errors :
    exec (.decode []) s0 = .next { s0 with ret := .decodeError .format } ∧
      exec (.decode (ascii "A|00")) s0 = .next { s0 with ret := .decodeError .checksumMismatch } :=
  ⟨decode_next _ _ _ (by decide +kernel), decode_next _ _ _ (by decide +kernel)⟩

theorem witness_FrameHandlingOrder :
    exec (.decode (ascii "CMD|HOST|7|PING|11")) s0 =
        .next { s0 with ret := .message ⟨txtCmd, ascii "HOST", some 7, txtPing⟩ } ∧
      exec (.decode (ascii "CMD|HOST|PING|5A")) legacy =
        .next { legacy with ret := .message ⟨txtCmd, ascii "HOST", none, txtPing⟩ } ∧
      exec (.decode (ascii "CMD|HOST|9|STATUS|1B")) s0 =
        .next { s0 with ret := .message ⟨txtCmd, ascii "HOST", some 9, txtStatus⟩ } ∧
      exec (.decode (ascii "CMD|HOST|7|SETROUTE=A|B|58")) s0 =
        .next { s0 with ret := .message ⟨txtCmd, ascii "HOST", some 7, txtSetroute ++ ascii "A|B"⟩ } ∧
      exec (.decode (ascii "CMD|HOST|8|SETETA=12|22")) s0 =
        .next { s0 with ret := .message ⟨txtCmd, ascii "HOST", some 8, txtSeteta ++ ascii "12"⟩ } ∧
      exec (.decode (ascii "CMD|HOST|7||01")) s0 = .next { s0 with ret := .message ⟨txtCmd, ascii "HOST", some 7, []⟩ } ∧
      exec (.decode (ascii "|HOST|7|PING|5B")) s0 =
        .next { s0 with ret := .message ⟨[], ascii "HOST", some 7, txtPing⟩ } ∧
      s0.lastHostSeq.toNat ≠ (7 : Byte).toNat ∧ ({ s0 with lastHostSeq := 7 } : State).lastHostSeq.toNat = (7 : Byte).toNat :=
  ⟨decode_next _ _ _ (by decide +kernel), decode_next _ _ _ (by decide +kernel), decode_next _ _ _ (by decide +kernel),
    decode_next _ _ _ (by decide +kernel), decode_next _ _ _ (by decide +kernel), decode_next _ _ _ (by decide +kernel),
    decode_next _ _ _ (by decide +kernel), by decide +kernel, by decide +kernel⟩

/-- Both ways to draw no frame (DS28; X5 step 2), and three ways to draw one (X7; P6 event 3; FA5). -/
theorem witness_FrameDrawsOneReplyOrNone :
    decodeBody s0.cfg (ascii "|HOST|7|PING|5B") = .ok ⟨[], ascii "HOST", some 7, txtPing⟩ ∧
      s0.cfg.unknownTypeReply = false ∧
      decodeBody s0.cfg (ascii "CMD|HOST|7|PING|11") = .ok ⟨txtCmd, ascii "HOST", some 7, txtPing⟩ ∧
      ({ s0 with lastHostSeq := 7 } : State).lastHostSeq.toNat = (7 : Byte).toNat ∧
      s0.lastHostSeq.toNat ≠ (7 : Byte).toNat ∧
      decodeBody legacy.cfg (ascii "HB|HOST|OK|0E") = .ok ⟨txtHb, ascii "HOST", none, txtOk⟩ ∧
      legacy.cfg.unknownTypeReply = true ∧ decodeBody s0.cfg [] = .error .format := by decide +kernel

/-- DC7 and DC15. -/
theorem witness_InboundNodeIsIgnored :
    decodeBody s0.cfg (ascii "CMD|HOST|9|STATUS|1B") = .ok ⟨txtCmd, ascii "HOST", some 9, txtStatus⟩ ∧
      decodeBody s0.cfg (ascii "CMD||9|STATUS|1B") = .ok ⟨txtCmd, [], some 9, txtStatus⟩ ∧
      decode s0.ctx (.frameIn (ascii "CMD|HOST|9|STATUS|1B")) = .ok (.cmdStatus (ascii "HOST") (some 9)) ∧
      decode s0.ctx (.frameIn (ascii "CMD||9|STATUS|1B")) = .ok (.cmdStatus [] (some 9)) := by decide +kernel

theorem witness_DeviceStateChangesOnlyByItsCommands :
    (∃ t, step (closing s0 "CMD|HOST|7|SETROUTE=A|B|58") = .next t ∧ t.routeId ≠ s0.routeId) ∧
      (∃ t, step (closing s0 "CMD|HOST|8|SETETA=12|22") = .next t ∧ t.etaMinutes ≠ s0.etaMinutes) ∧
      ∃ t, step (due .reset { s0 with etaMinutes := 4 }) = .next t ∧ t.etaMinutes ≠ 4 :=
  ⟨⟨_, rfl, by decide +kernel⟩, ⟨_, rfl, by decide +kernel⟩, ⟨_, rfl, by decide +kernel⟩⟩

theorem witness_PingAnswersPong :
    decodeBody refCtx.cfg (ascii "CMD|HOST|7|PING|11") = .ok ⟨txtCmd, ascii "HOST", some 7, txtPing⟩ := by decide +kernel

theorem witness_StatusReportsDeviceState :
    decodeBody refCtx.cfg (ascii "CMD|HOST|9|STATUS|1B") = .ok ⟨txtCmd, ascii "HOST", some 9, txtStatus⟩ := by decide +kernel

/-- Both ends of the range, with and without a tail; and texts that are no number. -/
theorem witness_SetEtaThenStatusShowsTheNumber :
    (-2 ^ 31 ≤ (-2147483648 : Int) ∧ (-2147483648 : Int) < 2 ^ 31 ∧ -2 ^ 31 ≤ (2147483647 : Int) ∧
        (2147483647 : Int) < 2 ^ 31) ∧
      (∀ b rest, ([] : Text) = b :: rest → isDigit b = false) ∧
      (∀ b rest, ascii "abc" = b :: rest → isDigit b = false ∧ b ≠ 0x2D ∧ b ≠ 0x2B) := by
  refine ⟨by decide, fun b rest h => (by cases h), fun b rest h => ?_⟩
  have e : ascii "abc" = 0x61 :: ascii "bc" := by decide +kernel
  rw [e] at h
  cases h
  decide

theorem witness_UnknownCommandIsReported :
    decodeBody refCtx.cfg (ascii "CMD|HOST|7||01") = .ok ⟨txtCmd, ascii "HOST", some 7, []⟩ ∧ ([] : Text) ≠ txtPing ∧
      ([] : Text) ≠ txtStatus ∧ ¬ txtSetroute <+: ([] : Text) ∧ ¬ txtSeteta <+: ([] : Text) := by decide +kernel

theorem witness_OtherTypeIsIgnoredOrReported :
    s0.cfg.unknownTypeReply = false ∧ legacy.cfg.unknownTypeReply = true := by decide +kernel

theorem witness_AssemblerIsReadyAfterEveryFrame :
    (∃ t, step { inFrame 3 with pending := [.rxbyte 0x03, .rxbyte 0x02] } = .next t) ∧ (inFrame 3).receiving = true ∧
      (0x03 : Byte) ≠ 0x02 ∧
      (∃ t, step { inFrame 64 with pending := [.rxbyte 0x04, .rxbyte 0x02] } = .next t) ∧
      (inFrame 64).cfg.rxCap ≤ (inFrame 64).rxBuf.length ∧ (0x04 : Byte) ≠ 0x02 :=
  ⟨⟨_, rfl⟩, by decide +kernel, by decide, ⟨_, rfl⟩, by decide +kernel, by decide⟩

/-- Each stream at its limit, on both sides of it, and across the wrap of the clock. -/
theorem witness_PollFiresTheDueStreamsInOrder :
    (false = true ↔ 5000 ≤ elapsed 4999 s0.lastFireHb) ∧ (true = true ↔ 5000 ≤ elapsed 5000 s0.lastFireHb) ∧
      (false = true ↔ 10000 ≤ elapsed 9999 s0.lastFireArr) ∧ (true = true ↔ 10000 ≤ elapsed 10000 s0.lastFireArr) ∧
      (false = true ↔ 30000 ≤ elapsed 29999 s0.lastFireDl) ∧ (true = true ↔ 30000 ≤ elapsed 30000 s0.lastFireDl) ∧
      (true = true ↔ 5000 ≤ elapsed 2704 4294965000) := by decide +kernel

/-- Due; and not due, with the other two streams due and not due. -/
theorem witness_HeartbeatFrame :
    5000 ≤ elapsed 5000 s0.lastFireHb ∧ elapsed 4999 s0.lastFireHb < 5000 ∧
      elapsed 30000 ({ s0 with lastFireHb := 25001 } : State).lastFireHb < 5000 ∧
      10000 ≤ elapsed 30000 s0.lastFireArr ∧ 30000 ≤ elapsed 30000 s0.lastFireDl := by decide +kernel

/-- Due with the heartbeat and without it; and not due, with the heartbeat and without it. -/
theorem witness_ArrivalFrame :
    10000 ≤ elapsed 10000 s0.lastFireArr ∧ 5000 ≤ elapsed 10000 s0.lastFireHb ∧
      ¬ 5000 ≤ elapsed 10000 ({ s0 with lastFireHb := 5001 } : State).lastFireHb ∧
      elapsed 9999 s0.lastFireArr < 10000 ∧ 5000 ≤ elapsed 9999 s0.lastFireHb ∧
      elapsed 4999 s0.lastFireArr < 10000 ∧ ¬ 5000 ≤ elapsed 4999 s0.lastFireHb := by decide +kernel

/-- Due with the other two and without them; and not due, with the other two and without them. -/
theorem witness_DelayFrame :
    30000 ≤ elapsed 30000 s0.lastFireDl ∧ 10000 ≤ elapsed 30000 s0.lastFireArr ∧
      ¬ 10000 ≤ elapsed 30000 ({ s0 with lastFireArr := 20001 } : State).lastFireArr ∧
      elapsed 29999 s0.lastFireDl < 30000 ∧ 10000 ≤ elapsed 29999 s0.lastFireArr ∧
      elapsed 4999 s0.lastFireDl < 30000 ∧ ¬ 10000 ≤ elapsed 4999 s0.lastFireArr := by decide +kernel

/-- Each range of the clock reading, at its ends; and the three frames of the reference configuration, from the examples of R253, R254
and R255. -/
theorem witness_FirstPollAfterReset :
    (4999 : U32).toNat < 5000 ∧ ¬ (5000 : U32).toNat < 5000 ∧ (9999 : U32).toNat < 10000 ∧ ¬ (10000 : U32).toNat < 10000 ∧
      (29999 : U32).toNat < 30000 ∧ ¬ (30000 : U32).toNat < 30000 ∧
      frame "HB|NODE01|0|OK|43" = sentFrame s0.cfg txtHb s0.cfg.txSeqInit txtOk ∧
      frame "ARR|NODE01|1|route=R1,stop=STOP01,eta=0|6B" = sentFrame s0.cfg txtArr (s0.cfg.txSeqInit + 1)
        (txtRouteEq ++ s0.cfg.routeInit ++ txtCommaStopEq ++ s0.cfg.stopId ++ txtCommaEtaEq ++ dec s0.cfg.etaInit.toInt) ∧
      frame "DL|NODE01|2|+5MIN|13" = sentFrame s0.cfg txtDl (s0.cfg.txSeqInit + 2) txtFiveMin := by decide +kernel

/-- X7: the frame's bytes pending before a byte of the next frame, with a new number and with one already seen. -/
theorem witness_PingOnTheWireIsAnswered :
    s0.cfg.seqAware = true ∧ fieldOk (ascii "HOST") = true ∧ (frame "CMD|HOST|7|PING|11").length ≤ s0.cfg.rxCap + 2 ∧
      (∀ s ∈ [s0, { s0 with lastHostSeq := 7 }],
        exec (.encode txtCmd (ascii "HOST") 7 txtPing)
            { s with pending := delivers (frame "CMD|HOST|7|PING|11") ++ [.rxbyte 0x02] } =
          .next { s with pending := delivers (frame "CMD|HOST|7|PING|11") ++ [.rxbyte 0x02],
                         ret := .text (frame "CMD|HOST|7|PING|11") }) ∧
      s0.lastHostSeq.toNat ≠ (7 : Byte).toNat := by
  refine ⟨by decide +kernel, by decide +kernel, by decide +kernel, ?_, by decide +kernel⟩
  have e : framed (joinPayload s0.cfg txtCmd (ascii "HOST") 7 txtPing) = frame "CMD|HOST|7|PING|11" := by decide +kernel
  intro s hs
  rcases List.mem_cons.1 hs with rfl | hs
  · rw [← e]; rfl
  · obtain rfl := List.mem_singleton.1 hs
    rw [← e]; rfl

end Sys2Proof.Tests
end

section
/-! The step of the machine: what it does with nothing pending, what it does with an event pending, and the row that each event is
read as. -/

namespace Sys2Proof.Machine

/-- R305: the hardware holds its state between events. -/
theorem step_of_pending_nil {s : State} (h : s.pending = []) : step s = .next s := by
  simp only [step, h]

/-- R10: the event leaves the queue and its row runs to completion. -/
theorem step_of_pending_cons {s : State} {e : Event} {rest : List Event} {i : Instr} (h : s.pending = e :: rest)
    (hi : decode s.ctx (eventCode e) = .ok i) : step s = endEvent (exec i (s.setPending rest)) := by
  simp only [step, h, hi]

/-- The decoder's test of a full buffer is the capacity test of R130. -/
theorem State.ctx_rxFull_eq_false (s : State) : s.ctx.rxFull = false ↔ s.rxBuf.length < s.cfg.rxCap := by
  show bufferFull s.cfg s.rxLen = false ↔ _
  rw [bufferFull, Bool.not_eq_false']
  exact decide_eq_true_iff

/-- The `BYTE` rows in the order of R130. -/
theorem decodeByte_eq (receiving full : Bool) (b : Byte) :
    decodeByte receiving full b =
      if b = 0x02 then .rxStx
      else if receiving = false then .rxIdle b
      else if b = 0x03 then .rxEtx
      else if full = false then .rxData b
      else .rxOvf b := by
  rw [decodeByte, selectByte_eq]
  split_ifs <;> rfl

/-- An arriving byte is read as the row that R130 selects in the state. -/
theorem decode_rxbyte (s : State) (b : Byte) :
    decode s.ctx (eventCode (.rxbyte b)) = .ok
      (if b = 0x02 then .rxStx
      else if s.receiving = false then .rxIdle b
      else if b = 0x03 then .rxEtx
      else if s.rxBuf.length < s.cfg.rxCap then .rxData b
      else .rxOvf b) := by
  show Except.ok (decodeByte s.receiving s.ctx.rxFull b) = _
  simp only [decodeByte_eq, State.ctx_rxFull_eq_false]

/-- A poll is read as itself, in every context (R120, R250). -/
theorem decode_poll (x : Ctx) (now : U32) : decode x (eventCode (.poll now)) = .ok (.poll now) := rfl

/-- A reset is read as itself, in every context (R120, R320). -/
theorem decode_reset (x : Ctx) : decode x (eventCode .reset) = .ok .reset := rfl

/-- Settles O1: the two equations of `step`, and the reading of each of the three events. -/
theorem stepRunsTheDecodedEvent : Obligations.StepRunsTheDecodedEvent := by
  intro s
  refine ⟨step_of_pending_nil, fun e rest hp => ⟨fun i hi => ?_, ?_⟩⟩
  · rw [step_of_pending_cons hp hi]
    show endEvent (exec i { s with pending := rest }) = _
    cases exec i { s with pending := rest } <;> rfl
  · cases e with
    | rxbyte b => exact decode_rxbyte s b
    | poll now => exact decode_poll s.ctx now
    | reset => exact decode_reset s.ctx

end Sys2Proof.Machine
end

section
/-! What one step of the machine leaves, event by event: the equations and the inversion from which the invariants of a step are
derived. -/

namespace Sys2Proof.Machine

/-- R130: the five ways in which an arriving byte is handled, each with the state it leaves. -/
theorem step_rxbyte_cases {s : State} {b : Byte} {rest : List Event} (hp : s.pending = .rxbyte b :: rest) :
    ∃ u, step s = .next (u.setRet .none) ∧
      ((b = STX ∧ u = restart true (s.setPending rest)) ∨
       (b ≠ STX ∧ s.receiving = false ∧ u = s.setPending rest) ∨
       (b = ETX ∧ s.receiving = true ∧ u = frameHandle s.rxBuf (restart false (s.setPending rest))) ∨
       (b ≠ STX ∧ b ≠ ETX ∧ s.receiving = true ∧ s.rxBuf.length < s.cfg.rxCap ∧
          u = (s.setPending rest).setRxBuf (s.rxBuf ++ [b])) ∨
       (b ≠ STX ∧ b ≠ ETX ∧ s.receiving = true ∧ s.cfg.rxCap ≤ s.rxBuf.length ∧
          u = sendAuto txtErr txtRxOverflow (restart false (s.setPending rest)))) := by
  rw [step_of_pending_cons hp (decode_rxbyte s b)]
  by_cases hstx : b = 0x02
  · exact ⟨_, by rw [if_pos hstx]; rfl, .inl ⟨hstx, rfl⟩⟩
  rw [if_neg hstx]
  by_cases hidle : s.receiving = false
  · exact ⟨_, by rw [if_pos hidle]; rfl, .inr (.inl ⟨hstx, hidle, rfl⟩)⟩
  rw [if_neg hidle]
  have hr : s.receiving = true := by simpa using hidle
  by_cases hetx : b = 0x03
  · refine ⟨_, by rw [if_pos hetx]; rfl, .inr (.inr (.inl ⟨hetx, hr, ?_⟩))⟩
    rw [memRead_rxbuf, State.setPending_rxBuf]
  rw [if_neg hetx]
  rcases appendRx_cases b (s.setPending rest) with
    ⟨(hfull : s.cfg.rxCap ≤ s.rxBuf.length), -⟩ | ⟨(hroom : s.rxBuf.length < s.cfg.rxCap), happ⟩
  · exact ⟨_, by rw [if_neg (Nat.not_lt.2 hfull)]; rfl,
      .inr (.inr (.inr (.inr ⟨hstx, hetx, hr, hfull, rfl⟩)))⟩
  · refine ⟨_, ?_, .inr (.inr (.inr (.inl ⟨hstx, hetx, hr, hroom, rfl⟩)))⟩
    rw [if_pos hroom]
    show endEvent (appendRx b (s.setPending rest)) = _
    rw [happ]
    rfl

/-- R250: a poll runs its three lines in order. -/
theorem step_poll {s : State} {now : U32} {rest : List Event} (hp : s.pending = .poll now :: rest) :
    step s = .next ((pollDl now (pollArr now (pollHb now (s.setPending rest)))).setRet .none) :=
  step_of_pending_cons hp (decode_poll s.ctx now)

/-- R320: a reset rewrites the registers. -/
theorem step_reset {s : State} {rest : List Event} (hp : s.pending = .reset :: rest) :
    step s = .next ((resetRegisters (s.setPending rest)).setRet .none) :=
  step_of_pending_cons hp (decode_reset s.ctx)

/-- The first line of `POLL`: nothing, or the stamp and one heartbeat. -/
theorem pollHb_cases (now : U32) (s : State) :
    pollHb now s = s ∨ pollHb now s = sendAuto txtHb txtOk (s.setLastFireHb now) :=
  (ite_eq_or_eq _ _ _).symm

/-- The second line of `POLL`: nothing, or the stamp and one arrival. -/
theorem pollArr_cases (now : U32) (s : State) :
    pollArr now s = s ∨
      pollArr now s = sendAuto txtArr (arrivalData s.cfg s.routeId s.etaMinutes) (s.setLastFireArr now) :=
  (ite_eq_or_eq _ _ _).symm

/-- The third line of `POLL`: nothing, or the stamp and one delay. -/
theorem pollDl_cases (now : U32) (s : State) :
    pollDl now s = s ∨ pollDl now s = sendAuto txtDl txtFiveMin (s.setLastFireDl now) :=
  (ite_eq_or_eq _ _ _).symm

end Sys2Proof.Machine
end

section
/-! Frames on the log: an event keeps the configuration and the queue it was handed, and appends a bounded number of frames
(R32, R33, R73). -/

namespace Sys2Proof.Machine

/-- From `s` to `t` at most `n` frames were handed to `Transmit`, and neither the configuration nor the queue was written. -/
def emitsAtMost (n : Nat) (s t : State) : Prop :=
  t.cfg = s.cfg ∧ t.pending = s.pending ∧ ∃ sent, t.tx = s.tx ++ sent ∧ sent.length ≤ n

/-- The register writes, which leave these three fields alone, emit nothing. -/
theorem emitsAtMost_of_eq {n : Nat} {s t : State} (hcfg : t.cfg = s.cfg) (hpending : t.pending = s.pending)
    (htx : t.tx = s.tx) : emitsAtMost n s t :=
  ⟨hcfg, hpending, [], by rw [htx, List.append_nil], Nat.zero_le n⟩

theorem emitsAtMost_refl (n : Nat) (s : State) : emitsAtMost n s s :=
  emitsAtMost_of_eq rfl rfl rfl

theorem emitsAtMost_trans {m n : Nat} {s t u : State} (hst : emitsAtMost m s t) (htu : emitsAtMost n t u) :
    emitsAtMost (m + n) s u := by
  obtain ⟨hcfg, hpending, sent, htx, hlen⟩ := hst
  obtain ⟨hcfg', hpending', sent', htx', hlen'⟩ := htu
  refine ⟨hcfg'.trans hcfg, hpending'.trans hpending, sent ++ sent', ?_, ?_⟩
  · rw [htx', htx, List.append_assoc]
  · rw [List.length_append]
    omega

theorem emitsAtMost_transmit {s t : State} (h : emitsAtMost 0 s t) (f : Text) : emitsAtMost 1 s (t.transmit f) :=
  emitsAtMost_trans (n := 1) h ⟨rfl, rfl, [f], rfl, Nat.le_refl 1⟩

theorem emitsAtMost_sendAuto {s t : State} (h : emitsAtMost 0 s t) (type data : Text) :
    emitsAtMost 1 s (sendAuto type data t) := by
  rw [sendAuto_eq]
  exact emitsAtMost_transmit (t := t.setTxSeq (t.txSeq + 1)) h _

/-- What holds of a poll's line: it does nothing, or writes its stamp and sends one frame. -/
theorem emitsAtMost_of_eq_or_sendAuto {s t u : State} {type data : Text} (h : emitsAtMost 0 s t)
    (hu : u = s ∨ u = sendAuto type data t) : emitsAtMost 1 s u := by
  rcases hu with rfl | rfl
  · exact emitsAtMost_refl 1 u
  · exact emitsAtMost_sendAuto h type data

/-- An accepted command sends its one reply. -/
theorem emitsAtMost_runCommand {s t : State} (h : emitsAtMost 0 s t) (seq : Option Byte) (d : Text) :
    emitsAtMost 1 s (runCommand seq d t) := by
  rcases runCommand_eq seq d t with ⟨-, e⟩ | ⟨-, e⟩ | ⟨v, -, e⟩ | ⟨v, -, e⟩ | ⟨-, -, -, -, e⟩ <;> rw [e]
  case inl => exact emitsAtMost_transmit h _
  case inr.inl => exact emitsAtMost_transmit h _
  case inr.inr.inl => exact emitsAtMost_transmit (t := t.setRouteId _) h _
  case inr.inr.inr.inl => exact emitsAtMost_transmit (t := t.setEtaMinutes _) h _
  case inr.inr.inr.inr => exact emitsAtMost_transmit h _

/-- The handling of a body draws one frame or none (R229). -/
theorem emitsAtMost_frameHandle {s t : State} (h : emitsAtMost 0 s t) (f : Text) :
    emitsAtMost 1 s (frameHandle f t) := by
  have hnone : emitsAtMost 1 s t := emitsAtMost_trans h (emitsAtMost_refl 1 t)
  rcases frameHandle_cases f t with ⟨-, e⟩ | ⟨-, e⟩ | ⟨m, -, hm⟩
  · rw [e]
    exact emitsAtMost_transmit (t := t.setTxSeq _) h _
  · rw [e]
    exact emitsAtMost_transmit (t := t.setTxSeq _) h _
  · rcases hm with ⟨-, -, e⟩ | ⟨-, -, e⟩ | ⟨-, -, e⟩ | ⟨-, -, -, e⟩ | ⟨-, -, q, -, -, e⟩ <;> rw [e]
    case inl => exact hnone
    case inr.inl => exact emitsAtMost_transmit h _
    case inr.inr.inl => exact hnone
    case inr.inr.inr.inl => exact emitsAtMost_runCommand h _ _
    case inr.inr.inr.inr => exact emitsAtMost_runCommand (t := t.setLastHostSeq (q.setWidth 9)) h _ _

/-- A poll sends at most one frame for each stream. -/
theorem emitsAtMost_poll (now : U32) (s : State) : emitsAtMost 3 s (pollDl now (pollArr now (pollHb now s))) := by
  have hb : ∀ t, emitsAtMost 1 t (pollHb now t) := fun t =>
    emitsAtMost_of_eq_or_sendAuto (emitsAtMost_of_eq (t := t.setLastFireHb now) rfl rfl rfl) (pollHb_cases now t)
  have arr : ∀ t, emitsAtMost 1 t (pollArr now t) := fun t =>
    emitsAtMost_of_eq_or_sendAuto (emitsAtMost_of_eq (t := t.setLastFireArr now) rfl rfl rfl) (pollArr_cases now t)
  have dl : ∀ t, emitsAtMost 1 t (pollDl now t) := fun t =>
    emitsAtMost_of_eq_or_sendAuto (emitsAtMost_of_eq (t := t.setLastFireDl now) rfl rfl rfl) (pollDl_cases now t)
  exact emitsAtMost_trans (emitsAtMost_trans (hb s) (arr _)) (dl _)

/-- A byte draws one frame or none. -/
theorem step_rxbyte_emitsAtMost {s t : State} {b : Byte} {rest : List Event} (hp : s.pending = .rxbyte b :: rest)
    (h : step s = .next t) : emitsAtMost 1 (s.setPending rest) t := by
  obtain ⟨u, hu, hcases⟩ := step_rxbyte_cases hp
  obtain rfl := Host.Outcome.next.inj (hu.symm.trans h)
  have same : ∀ v, emitsAtMost 0 (s.setPending rest) (restart v (s.setPending rest)) :=
    fun _ => emitsAtMost_of_eq rfl rfl rfl
  rcases hcases with ⟨-, rfl⟩ | ⟨-, -, rfl⟩ | ⟨-, -, rfl⟩ | ⟨-, -, -, -, rfl⟩ | ⟨-, -, -, -, rfl⟩
  · exact emitsAtMost_of_eq rfl rfl rfl
  · exact emitsAtMost_of_eq rfl rfl rfl
  · exact emitsAtMost_frameHandle (same false) s.rxBuf
  · exact emitsAtMost_of_eq rfl rfl rfl
  · exact emitsAtMost_sendAuto (same false) txtErr txtRxOverflow

/-- Settles O5: each event appends at most its number of frames. -/
theorem stepKeepsConfigurationAndAppendsToTheLog : Obligations.StepKeepsConfigurationAndAppendsToTheLog := by
  intro s t h
  cases hp : s.pending with
  | nil =>
    obtain rfl := Host.Outcome.next.inj ((step_of_pending_nil hp).symm.trans h)
    exact ⟨rfl, hp, [], (List.append_nil _).symm, rfl⟩
  | cons e rest =>
    cases e with
    | rxbyte b => exact step_rxbyte_emitsAtMost hp h
    | poll now =>
      obtain rfl := Host.Outcome.next.inj ((step_poll hp).symm.trans h)
      exact emitsAtMost_poll now (s.setPending rest)
    | reset =>
      obtain rfl := Host.Outcome.next.inj ((step_reset hp).symm.trans h)
      exact ⟨rfl, rfl, [], (List.append_nil _).symm, rfl⟩

end Sys2Proof.Machine
end

section
/-! Sound frames: whatever a node of a well-formed configuration sends, of its own types and with data free of delimiters, is a
frame of R105 and R185, also where a literal error frame replaces it. -/

namespace Sys2Proof.Machine

/-- The texts of a well-formed configuration hold no frame delimiter, and its initial route fits (R8 items 1 and 3). -/
theorem wf_texts {c : Config} (h : c.wf = true) :
    noDelims c.nodeId = true ∧ noDelims c.stopId = true ∧ noDelims c.routeInit = true ∧
      c.routeInit.length ≤ c.routeCap := by
  simp only [Config.wf, Config.identitiesOk, Config.routeFits, Bool.and_eq_true, decide_eq_true_eq] at h
  obtain ⟨⟨⟨⟨⟨⟨hnode, hstop⟩, hroute⟩, -⟩, hfits⟩, -⟩, -⟩ := h
  exact ⟨hnode, hstop, hroute, hfits⟩

theorem noDelims_of_mem_nodeTypes : ∀ type ∈ nodeTypes, noDelims type = true := by decide

theorem noDelims_wirePayload {c : Config} {type data : Text} (hc : c.wf = true) (htype : noDelims type = true)
    (seq : Byte) (hdata : noDelims data = true) : noDelims (wirePayload c type seq data) = true := by
  have hnode := (wf_texts hc).1
  have hfs : noDelims [FS] = true := by decide
  have hseq : noDelims (decSeq seq) = true := noDelims_dec _
  unfold wirePayload
  split <;> simp only [noDelims_append, htype, hfs, hnode, hseq, hdata, Bool.and_self]

/-- A frame that fits is sound. -/
theorem soundFrame_wireFrame {c : Config} {type data : Text} (hc : c.wf = true) (htype : type ∈ nodeTypes) (seq : Byte)
    (hdata : noDelims data = true) : soundFrame c (wireFrame (wirePayload c type seq data)) :=
  ⟨type, seq, data, htype, rfl, noDelims_wirePayload hc (noDelims_of_mem_nodeTypes type htype) seq hdata⟩

/-- A literal frame is the `ERR` frame of number 0 (R181). -/
theorem wireLiteral_eq_wireFrame (c : Config) (reason : Text) :
    wireLiteral c reason = wireFrame (wirePayload c txtErr 0 reason) := by
  have h0 : decSeq 0 = [0x30] := by decide
  unfold wireLiteral wirePayload
  rw [h0]
  split <;> rfl

theorem soundFrame_wireLiteral {c : Config} {reason : Text} (hc : c.wf = true) (hreason : noDelims reason = true) :
    soundFrame c (wireLiteral c reason) := by
  rw [wireLiteral_eq_wireFrame]
  exact soundFrame_wireFrame hc (by decide) 0 hreason

/-- Whatever `SEND` transmits is sound. -/
theorem soundFrame_sentFrame {c : Config} {type data : Text} (hc : c.wf = true) (htype : type ∈ nodeTypes) (seq : Byte)
    (hdata : noDelims data = true) : soundFrame c (sentFrame c type seq data) := by
  unfold sentFrame
  split
  · exact soundFrame_wireLiteral hc (by decide)
  split
  · exact soundFrame_wireLiteral hc (by decide)
  · exact soundFrame_wireFrame hc htype seq hdata

theorem noDelims_statusData {c : Config} {route : Text} (hc : c.wf = true) (hroute : noDelims route = true) (eta : U32) :
    noDelims (statusData c route eta) = true := by
  have hnode := (wf_texts hc).1
  have heta : noDelims (decI32 eta) = true := noDelims_dec _
  have hkeys : noDelims txtNodeEq = true ∧ noDelims txtCommaRouteEq = true ∧ noDelims txtCommaEtaEq = true := by decide
  simp only [statusData, noDelims_append, hnode, hroute, heta, hkeys, Bool.and_self]

theorem noDelims_arrivalData {c : Config} {route : Text} (hc : c.wf = true) (hroute : noDelims route = true) (eta : U32) :
    noDelims (arrivalData c route eta) = true := by
  have hstop := (wf_texts hc).2.1
  have heta : noDelims (decI32 eta) = true := noDelims_dec _
  have hkeys : noDelims txtRouteEq = true ∧ noDelims txtCommaStopEq = true ∧ noDelims txtCommaEtaEq = true := by decide
  simp only [arrivalData, noDelims_append, hstop, hroute, heta, hkeys, Bool.and_self]

end Sys2Proof.Machine
end

section
/-! The invariant: one rule for each state operation, then the frame handling, the events and the step. -/

namespace Sys2Proof.Machine

/-- The invariant of a well-formed configuration, apart from the returned value, which an event may hold while it runs. -/
def State.sound (s : State) : Prop :=
  s.cfg.wf = true ∧ s.assemblerOk ∧ s.watermarkOk ∧ s.routeOk ∧ s.logOk

theorem State.sound_of_inv {s : State} (hc : s.cfg.wf = true) (h : s.inv) : s.sound := by
  obtain ⟨hasm, hmark, hroute, hlog, -⟩ := h
  exact ⟨hc, hasm, hmark, hroute, hlog⟩

/-- The end of an event completes the invariant (R31). -/
theorem State.sound.inv_setRet_none {s : State} (h : s.sound) : (s.setRet .none).inv := by
  obtain ⟨-, hasm, hmark, hroute, hlog⟩ := h
  exact ⟨hasm, hmark, hroute, hlog, rfl⟩

theorem State.sound.cfg_wf {s : State} (h : s.sound) : s.cfg.wf = true := h.1

theorem State.sound.noDelims_rxBuf {s : State} (h : s.sound) : noDelims s.rxBuf = true := by
  obtain ⟨-, ⟨-, -, hbuf⟩, -⟩ := h
  exact hbuf

theorem State.sound.noDelims_routeId {s : State} (h : s.sound) : noDelims s.routeId = true := by
  obtain ⟨-, -, -, ⟨-, hroute⟩, -⟩ := h
  exact hroute

/-! The writes of the fields of which the invariant says nothing. -/

@[simp] theorem State.sound_setTxSeq (s : State) (v : Byte) : (s.setTxSeq v).sound ↔ s.sound := Iff.rfl
@[simp] theorem State.sound_setLastFireHb (s : State) (v : U32) : (s.setLastFireHb v).sound ↔ s.sound := Iff.rfl
@[simp] theorem State.sound_setLastFireArr (s : State) (v : U32) : (s.setLastFireArr v).sound ↔ s.sound := Iff.rfl
@[simp] theorem State.sound_setLastFireDl (s : State) (v : U32) : (s.setLastFireDl v).sound ↔ s.sound := Iff.rfl
@[simp] theorem State.sound_setEtaMinutes (s : State) (v : U32) : (s.setEtaMinutes v).sound ↔ s.sound := Iff.rfl
@[simp] theorem State.sound_setPending (s : State) (v : List Event) : (s.setPending v).sound ↔ s.sound := Iff.rfl

/-! The writes of the fields it speaks of. -/

theorem State.sound.restart {s : State} (h : s.sound) (v : Bool) : (restart v s).sound := by
  obtain ⟨hc, -, hmark, hroute, hlog⟩ := h
  exact ⟨hc, ⟨fun _ => rfl, Nat.zero_le _, rfl⟩, hmark, hroute, hlog⟩

/-- R133: a data byte, stored inside a frame where there is room. -/
theorem State.sound.setRxBuf_append {s : State} {b : Byte} (h : s.sound) (hstx : b ≠ STX) (hetx : b ≠ ETX)
    (hr : s.receiving = true) (hroom : s.rxBuf.length < s.cfg.rxCap) : (s.setRxBuf (s.rxBuf ++ [b])).sound := by
  obtain ⟨hc, ⟨-, -, hbuf⟩, hmark, hroute, hlog⟩ := h
  have hb : noDelims [b] = true := by simp [noDelims, hstx, hetx]
  have hidle : (s.setRxBuf (s.rxBuf ++ [b])).receiving = false → s.rxBuf ++ [b] = [] := fun hf => by
    rw [State.setRxBuf_receiving, hr] at hf
    cases hf
  have hlen : (s.rxBuf ++ [b]).length ≤ s.cfg.rxCap := by
    rw [List.length_append]
    exact hroom
  exact ⟨hc, ⟨hidle, hlen, by rw [State.setRxBuf_rxBuf, noDelims_append, hbuf, hb]; rfl⟩, hmark, hroute, hlog⟩

/-- R210, R214: only a sequence-aware node stores a number, and the number has 8 bits. -/
theorem State.sound.setLastHostSeq {s : State} (h : s.sound) (hseq : s.cfg.seqAware = true) (q : Byte) :
    (s.setLastHostSeq (q.setWidth 9)).sound := by
  obtain ⟨hc, hasm, -, hroute, hlog⟩ := h
  have hle : (q.setWidth 9).toNat ≤ 0x100 := by
    have hq := q.isLt
    rw [BitVec.toNat_setWidth]
    omega
  have hlegacy : s.cfg.seqAware = false → q.setWidth 9 = seqNone := fun hf => by
    rw [hseq] at hf
    cases hf
  exact ⟨hc, hasm, ⟨hle, hlegacy⟩, hroute, hlog⟩

/-- R224: `route_id` keeps as much of the value as there is room for. -/
theorem State.sound.setRouteId {s : State} (h : s.sound) {v : Text} (hv : noDelims v = true) :
    (s.setRouteId (v.take s.cfg.routeCap)).sound := by
  obtain ⟨hc, hasm, hmark, -, hlog⟩ := h
  have hroute : noDelims (v.take s.cfg.routeCap) = true := noDelims_subset (fun _ => List.mem_of_mem_take) hv
  exact ⟨hc, hasm, hmark, ⟨List.length_take_le _ _, hroute⟩, hlog⟩

/-- Sending keeps the invariant, for the node's own types and data free of delimiters. -/
theorem State.sound.transmit_sentFrame {s : State} (h : s.sound) {type data : Text} (htype : type ∈ nodeTypes)
    (seq : Byte) (hdata : noDelims data = true) : (s.transmit (sentFrame s.cfg type seq data)).sound := by
  obtain ⟨hc, hasm, hmark, hroute, hlog⟩ := h
  refine ⟨hc, hasm, hmark, hroute, fun f hf => ?_⟩
  rcases List.mem_append.1 hf with hold | hnew
  · exact hlog f hold
  · rw [List.mem_singleton.1 hnew]
    exact soundFrame_sentFrame hc htype seq hdata

theorem State.sound.sendAuto {s : State} (h : s.sound) {type data : Text} (htype : type ∈ nodeTypes)
    (hdata : noDelims data = true) : (sendAuto type data s).sound := by
  rw [sendAuto_eq]
  exact ((State.sound_setTxSeq s (s.txSeq + 1)).2 h).transmit_sentFrame htype s.txSeq hdata

/-- R320: every register a reset writes gets a value that the invariant admits, whatever it held. -/
theorem resetRegisters_sound {s : State} (hc : s.cfg.wf = true) (hlog : s.logOk) : (resetRegisters s).sound := by
  obtain ⟨-, -, hroute, hfits⟩ := wf_texts hc
  have hasm : (resetRegisters s).assemblerOk := ⟨fun _ => rfl, Nat.zero_le _, rfl⟩
  have hmark : (resetRegisters s).watermarkOk := ⟨Nat.le_refl _, fun _ => rfl⟩
  exact ⟨hc, hasm, hmark, ⟨hfits, hroute⟩, hlog⟩

/-! Commands and frames. -/

/-- An accepted command keeps the invariant, if its text holds no delimiter. -/
theorem State.sound.runCommand {s : State} (h : s.sound) (seq : Option Byte) {d : Text} (hd : noDelims d = true) :
    (runCommand seq d s).sound := by
  rcases runCommand_eq seq d s with ⟨-, e⟩ | ⟨-, e⟩ | ⟨v, hv, e⟩ | ⟨v, -, e⟩ | ⟨-, -, -, -, e⟩ <;> rw [e]
  case inl => exact h.transmit_sentFrame (by decide) _ (by decide)
  case inr.inl =>
    exact h.transmit_sentFrame (by decide) _ (noDelims_statusData h.cfg_wf h.noDelims_routeId s.etaMinutes)
  case inr.inr.inl =>
    have hval : noDelims v = true := noDelims_subset (fun _ hb => hv ▸ List.mem_append_right _ hb) hd
    exact (h.setRouteId hval).transmit_sentFrame (by decide) _ (by decide)
  case inr.inr.inr.inl =>
    exact ((State.sound_setEtaMinutes s (wrapI32 (parseInt v))).2 h).transmit_sentFrame (by decide) _ (by decide)
  case inr.inr.inr.inr => exact h.transmit_sentFrame (by decide) _ (by decide)

/-- The handling of a body without delimiters keeps the invariant. -/
theorem State.sound.frameHandle {s : State} (h : s.sound) {f : Text} (hf : noDelims f = true) :
    (frameHandle f s).sound := by
  rcases frameHandle_cases f s with ⟨-, e⟩ | ⟨-, e⟩ | ⟨m, hdec, hm⟩
  · rw [e]
    exact ((State.sound_setTxSeq s (s.txSeq + 1)).2 h).transmit_sentFrame (by decide) _ (by decide)
  · rw [e]
    exact ((State.sound_setTxSeq s (s.txSeq + 1)).2 h).transmit_sentFrame (by decide) _ (by decide)
  · obtain ⟨-, -, -, hsub⟩ := decodeBody_ok hdec
    have hdata : noDelims m.data = true := noDelims_subset hsub hf
    rcases hm with ⟨-, -, e⟩ | ⟨-, -, e⟩ | ⟨-, -, e⟩ | ⟨-, -, -, e⟩ | ⟨-, hseq, q, -, -, e⟩ <;> rw [e]
    case inl => exact h
    case inr.inl => exact h.transmit_sentFrame (by decide) _ (by decide)
    case inr.inr.inl => exact h
    case inr.inr.inr.inl => exact h.runCommand none hdata
    case inr.inr.inr.inr => exact (h.setLastHostSeq hseq q).runCommand (some q) hdata

/-! The events. -/

/-- A line of a poll that does nothing, or writes its stamp and sends one frame, keeps the invariant. -/
theorem State.sound.of_eq_or_sendAuto {s t u : State} (hs : s.sound) (ht : t.sound) {type data : Text}
    (htype : type ∈ nodeTypes) (hdata : noDelims data = true) (hu : u = s ∨ u = Machine.sendAuto type data t) :
    u.sound := by
  rcases hu with rfl | rfl
  · exact hs
  · exact ht.sendAuto htype hdata

theorem State.sound.pollHb {s : State} (h : s.sound) (now : U32) : (pollHb now s).sound :=
  h.of_eq_or_sendAuto ((State.sound_setLastFireHb s now).2 h) (by decide) (by decide) (pollHb_cases now s)

theorem State.sound.pollArr {s : State} (h : s.sound) (now : U32) : (pollArr now s).sound :=
  h.of_eq_or_sendAuto ((State.sound_setLastFireArr s now).2 h) (by decide)
    (noDelims_arrivalData h.cfg_wf h.noDelims_routeId s.etaMinutes) (pollArr_cases now s)

theorem State.sound.pollDl {s : State} (h : s.sound) (now : U32) : (pollDl now s).sound :=
  h.of_eq_or_sendAuto ((State.sound_setLastFireDl s now).2 h) (by decide) (by decide) (pollDl_cases now s)

theorem step_rxbyte_inv {s t : State} {b : Byte} {rest : List Event} (hp : s.pending = .rxbyte b :: rest)
    (hs : s.sound) (h : step s = .next t) : t.inv := by
  obtain ⟨u, hu, hcases⟩ := step_rxbyte_cases hp
  obtain rfl := Host.Outcome.next.inj (hu.symm.trans h)
  have htaken : (s.setPending rest).sound := (State.sound_setPending s rest).2 hs
  apply State.sound.inv_setRet_none
  rcases hcases with ⟨-, rfl⟩ | ⟨-, -, rfl⟩ | ⟨-, -, rfl⟩ | ⟨hstx, hetx, hr, hroom, rfl⟩ | ⟨-, -, -, -, rfl⟩
  · exact htaken.restart true
  · exact htaken
  · exact (htaken.restart false).frameHandle hs.noDelims_rxBuf
  · exact htaken.setRxBuf_append hstx hetx hr hroom
  · exact (htaken.restart false).sendAuto (by decide) (by decide)

/-- Settles O3: the strengthened invariant is kept by each of the three events. -/
theorem everyStepKeepsTheInvariant : Obligations.EveryStepKeepsTheInvariant := by
  intro s t hc hinv h
  have hs : s.sound := State.sound_of_inv hc hinv
  cases hp : s.pending with
  | nil =>
    obtain rfl := Host.Outcome.next.inj ((step_of_pending_nil hp).symm.trans h)
    exact hinv
  | cons e rest =>
    have htaken : (s.setPending rest).sound := (State.sound_setPending s rest).2 hs
    cases e with
    | rxbyte b => exact step_rxbyte_inv hp hs h
    | poll now =>
      obtain rfl := Host.Outcome.next.inj ((step_poll hp).symm.trans h)
      exact (((htaken.pollHb now).pollArr now).pollDl now).inv_setRet_none
    | reset =>
      obtain rfl := Host.Outcome.next.inj ((step_reset hp).symm.trans h)
      obtain ⟨-, -, -, -, hlog⟩ := htaken
      exact (resetRegisters_sound hc hlog).inv_setRet_none

theorem resetOf_inv {c : Config} (hc : c.wf = true) : (State.resetOf c).inv := by
  have hlog : (State.resetOf c).logOk := fun f hf => absurd hf List.not_mem_nil
  exact (resetRegisters_sound hc hlog).inv_setRet_none

/-- Settles O4: a reset establishes the invariant from an empty log. -/
theorem resetEstablishesTheInvariant : Obligations.ResetEstablishesTheInvariant := by
  have href : cfgRef.wf = true := by decide
  exact ⟨fun _ => resetOf_inv, href, resetOf_inv href⟩

end Sys2Proof.Machine
end

section
/-! What `exec` does with an arriving byte: the one of the five rows that R130 selects. -/

namespace Sys2Proof.Machine

/-- The event runs the row that the decoder reads the byte as. -/
theorem exec_rxbyte_eq_exec_decodeByte (s : State) (b : Byte) :
    exec (.rxbyte b) s = exec (decodeByte s.receiving s.ctx.rxFull b) s := by
  have hctx : s.ctx.rxFull = bufferFull s.cfg s.rxLen := rfl
  show execRxbyte b s = _
  rw [execRxbyte, decodeByte, hctx]
  cases selectByte s.receiving (bufferFull s.cfg s.rxLen) b <;> rfl

/-- R130: the event runs exactly one of the five rows. -/
theorem exec_rxbyte_eq (s : State) (b : Byte) :
    exec (.rxbyte b) s = exec
      (if b = 0x02 then .rxStx
      else if s.receiving = false then .rxIdle b
      else if b = 0x03 then .rxEtx
      else if s.rxBuf.length < s.cfg.rxCap then .rxData b
      else .rxOvf b) s := by
  rw [exec_rxbyte_eq_exec_decodeByte]
  simp only [decodeByte_eq, State.ctx_rxFull_eq_false]

/-- The choice for R61 (log entry 5): the index does not exist, and the row stops there. -/
theorem exec_rxData_of_full {s : State} (hfull : s.cfg.rxCap ≤ s.rxBuf.length) (b : Byte) :
    exec (.rxData b) s = .fault .rxbufIndex := by
  rcases appendRx_cases b s with ⟨-, hfault⟩ | ⟨hroom, -⟩
  · exact hfault
  · exact absurd hroom (Nat.not_lt.2 hfull)

/-- With the buffer full, the capacity test of R130 leaves `RX.OVF` for a body byte, never `RX.DATA`. -/
theorem exec_rxbyte_of_full {s : State} (hfull : s.cfg.rxCap ≤ s.rxBuf.length) (b : Byte) :
    exec (.rxbyte b) s = exec
      (if b = 0x02 then .rxStx
      else if s.receiving = false then .rxIdle b
      else if b = 0x03 then .rxEtx
      else .rxOvf b) s := by
  rw [exec_rxbyte_eq, if_neg (Nat.not_lt.2 hfull)]

/-- Settles O14: the append faults beyond the capacity, and the four rows that R130 leaves to a full buffer complete. -/
theorem dataByteOnAFullBufferStops : Obligations.DataByteOnAFullBufferStops := by
  intro s b hfull
  refine ⟨exec_rxData_of_full hfull b, ?_⟩
  rw [exec_rxbyte_of_full hfull]
  split_ifs with hstx hidle hetx
  · exact ⟨restart true s, rfl⟩
  · exact ⟨s, rfl⟩
  · exact ⟨frameHandle (memRead .rxbuf s 0 s.rxLen) (restart false s), rfl⟩
  · exact ⟨takeError .bufferOverflow none (restart false s), rfl⟩

end Sys2Proof.Machine
end

section
/-! Received bodies and framed outputs read back: what `DECODE` answers for a text written from its fields, and the row that a
decoded message selects. -/

namespace Sys2Proof.Machine

/-! Texts written from their fields. -/

theorem fs_notMem_of_noFs {t : Text} (h : noFs t = true) : FS ∉ t := by
  intro hmem
  have hne : (FS != FS) = true := List.all_eq_true.1 h FS hmem
  exact absurd hne (by decide)

theorem fs_notMem_of_fieldOk {t : Text} (h : fieldOk t = true) : FS ∉ t := by
  rw [fieldOk, Bool.and_eq_true] at h
  exact fs_notMem_of_noFs h.2

/-- R8 item 2. -/
theorem fs_notMem_nodeId {c : Config} (h : c.wf = true) : FS ∉ c.nodeId := by
  simp only [Config.wf, Config.nodeIdOk, Bool.and_eq_true] at h
  obtain ⟨⟨⟨⟨-, hnode⟩, -⟩, -⟩, -⟩ := h
  exact fs_notMem_of_noFs hnode

/-- R173: the first delimiters of a joined payload are those between its fields, whatever the data holds. -/
theorem splitInput_joinText (c : Config) {type node seqTxt : Text} (data : Text) (htype : FS ∉ type) (hnode : FS ∉ node)
    (hseq : FS ∉ seqTxt) :
    splitInput c (joinText c type node seqTxt data) =
      .ok ⟨type, node, if c.seqAware then some (seqOfText seqTxt) else none, data⟩ := by
  have hjoin : joinText c type node seqTxt data =
      type ++ FS :: (node ++ FS :: (if c.seqAware then seqTxt ++ FS :: data else data)) := by
    rw [joinText, List.append_assoc, List.cons_append]
  rw [hjoin, splitInput_fields c type node _ htype hnode]
  cases c.seqAware with
  | false => rfl
  | true =>
    have htail : slice (seqTxt ++ FS :: data) (seqTxt.length + 1) (seqTxt ++ FS :: data).length = data := by
      simpa using slice_tail (seqTxt ++ [FS]) data
    simp only [if_true, findFirst_zero_append seqTxt data FS hseq, slice_zero_length_append, htail]

/-- The generated checksum validates, so only the split of the payload is left (R156, R170). -/
theorem decodeBody_bodyOf (c : Config) (p : Text) : decodeBody c (bodyOf p) = splitInput c p := by
  have hfield : FS ∉ checksumText p := fs_notMem_hex2 (xor8 p)
  have hval : xor8 p = hexval (checksumText p) := (hexval_hex2 (xor8 p)).symm
  rw [bodyOf, decodeBody_split c p (checksumText p) hfield, if_pos hval]

/-- `seq` is read back as it was: present exactly in the sequence-aware form (R9). -/
theorem seq_of_seqText {c : Config} {seq : Option Byte} (h : seqOk c seq = true) :
    (if c.seqAware then some (seqOfText (seqText seq)) else none) = seq := by
  have hsome : seq.isSome = c.seqAware := by simpa [seqOk] using h
  cases seq with
  | none => rw [← hsome]; rfl
  | some q =>
    rw [← hsome]
    exact congrArg some (seqOfText_decSeq q)

/-- A body template is read back with all four fields (R90, R120). -/
theorem decodeBody_bodyTemplate {c : Config} {type node : Text} {seq : Option Byte} (data : Text) (htype : FS ∉ type)
    (hnode : FS ∉ node) (hseq : seqOk c seq = true) :
    decodeBody c (bodyTemplate c type node seq data) = .ok ⟨type, node, seq, data⟩ := by
  have hfs : FS ∉ seqText seq := fs_notMem_decSeq _
  rw [bodyTemplate, decodeBody_bodyOf, splitInput_joinText c data htype hnode hfs, seq_of_seqText hseq]

/-! The row of a decoded message. -/

/-- A body that decodes is read as the row of its message. -/
theorem decode_frameIn {x : Ctx} {f : Text} {m : Message} (h : decodeBody x.cfg f = .ok m) :
    decode x (.frameIn f) = .ok (decodeMessage m) := by
  show decodeFrameIn x.cfg f = _
  rw [decodeFrameIn, h]

/-- A body template is read as the row of the fields it was written from. -/
theorem decode_bodyTemplate {x : Ctx} {type node : Text} {seq : Option Byte} (data : Text) (htype : fieldOk type = true)
    (hnode : fieldOk node = true) (hseq : seqOk x.cfg seq = true) :
    decode x (.frameIn (bodyTemplate x.cfg type node seq data)) = .ok (decodeMessage ⟨type, node, seq, data⟩) :=
  decode_frameIn (decodeBody_bodyTemplate data (fs_notMem_of_fieldOk htype) (fs_notMem_of_fieldOk hnode) hseq)

theorem decodeMessage_of_type_ne {type : Text} (h : type ≠ txtCmd) (node : Text) (seq : Option Byte) (data : Text) :
    decodeMessage ⟨type, node, seq, data⟩ = .typeOther type node seq data := by
  have hcmd : isCommand type = false := beq_eq_false_iff_ne.2 h
  simp only [decodeMessage, hcmd, Bool.false_eq_true, if_false]

theorem decodeMessage_ping (node : Text) (seq : Option Byte) :
    decodeMessage ⟨txtCmd, node, seq, txtPing⟩ = .cmdPing node seq := rfl

theorem decodeMessage_status (node : Text) (seq : Option Byte) :
    decodeMessage ⟨txtCmd, node, seq, txtStatus⟩ = .cmdStatus node seq := rfl

theorem decodeMessage_setroute (node : Text) (seq : Option Byte) (v : Text) :
    decodeMessage ⟨txtCmd, node, seq, txtSetroute ++ v⟩ = .cmdSetroute node seq v := by
  have hcmd : isCommand txtCmd = true := rfl
  simp only [decodeMessage, hcmd, if_true, selectCommand_setroute]

theorem decodeMessage_seteta (node : Text) (seq : Option Byte) (v : Text) :
    decodeMessage ⟨txtCmd, node, seq, txtSeteta ++ v⟩ = .cmdSeteta node seq v := by
  have hcmd : isCommand txtCmd = true := rfl
  simp only [decodeMessage, hcmd, if_true, selectCommand_seteta]

theorem decodeMessage_unknown {data : Text} (h : selectCommand data = .unknown) (node : Text) (seq : Option Byte) :
    decodeMessage ⟨txtCmd, node, seq, data⟩ = .cmdUnknown node seq data := by
  have hcmd : isCommand txtCmd = true := rfl
  simp only [decodeMessage, hcmd, if_true, h]

/-- Data that matches none of the four patterns selects the last row of the command table (R106). -/
theorem selectCommand_eq_unknown {d : Text} (hping : d ≠ txtPing) (hstatus : d ≠ txtStatus)
    (hroute : ¬ txtSetroute <+: d) (heta : ¬ txtSeteta <+: d) : selectCommand d = .unknown := by
  rcases selectCommand_cases d with ⟨h, -⟩ | ⟨h, -⟩ | ⟨v, h, -⟩ | ⟨v, h, -⟩ | ⟨-, -, -, -, e⟩
  · exact absurd h hping
  · exact absurd h hstatus
  · exact absurd ⟨v, h.symm⟩ hroute
  · exact absurd ⟨v, h.symm⟩ heta
  · exact e

/-- Settles O8: a decoded body is the row of its message, which `TYPE` selects and then the command table. -/
theorem bodySelectsItsRow : Obligations.BodySelectsItsRow := by
  rintro x f ⟨type, node, seq, data⟩ h
  rw [decode_frameIn h]
  refine ⟨fun htype => by rw [decodeMessage_of_type_ne htype], ?_⟩
  rintro (rfl : type = txtCmd)
  refine ⟨?_, ?_, ?_, ?_, ?_⟩
  · rintro (rfl : data = txtPing)
    rw [decodeMessage_ping]
  · rintro (rfl : data = txtStatus)
    rw [decodeMessage_status]
  · rintro v (rfl : data = txtSetroute ++ v)
    rw [decodeMessage_setroute]
  · rintro v (rfl : data = txtSeteta ++ v)
    rw [decodeMessage_seteta]
  · intro hping hstatus hroute heta
    rw [decodeMessage_unknown (selectCommand_eq_unknown hping hstatus hroute heta)]

end Sys2Proof.Machine
end

section
/-! The encoder is undone by the decoder, format by format of R120. -/

namespace Sys2Proof.Machine

/-- The `BYTE` rows: the state condition of a row and the bytes it admits leave R130 no other choice. -/
theorem decode_encode_of_byte {x : Ctx} {i : Instr} (hf : i.format = .byte) (hwf : i.wf x.cfg = true)
    (hsel : i.selectableIn x = true) : decode x (encode x i) = .ok i := by
  have hdec : ∀ b, decode x (.byte b) = .ok (decodeByte x.receiving x.rxFull b) := fun _ => rfl
  have hdata : ∀ b, dataByte b = true → b ≠ 0x02 ∧ b ≠ 0x03 := fun b hb => by
    simpa [dataByte, STX, ETX] using hb
  cases i with
  | rxStx => rfl
  | rxEtx =>
    have hr : x.receiving = true := hsel
    rw [encode, hdec, decodeByte_eq, hr]
    rfl
  | rxIdle b =>
    have hr : x.receiving = false := by simpa [Instr.selectableIn] using hsel
    have hb : b ≠ 0x02 := by simpa [Instr.wf, STX] using hwf
    rw [encode, hdec, decodeByte_eq, if_neg hb, if_pos hr]
  | rxData b =>
    obtain ⟨hr, hroom⟩ : x.receiving = true ∧ x.rxFull = false := by simpa [Instr.selectableIn] using hsel
    obtain ⟨hstx, hetx⟩ := hdata b hwf
    rw [encode, hdec, decodeByte_eq, if_neg hstx, if_neg (by rw [hr]; decide), if_neg hetx, if_pos hroom]
  | rxOvf b =>
    obtain ⟨hr, hfull⟩ : x.receiving = true ∧ x.rxFull = true := by simpa [Instr.selectableIn] using hsel
    obtain ⟨hstx, hetx⟩ := hdata b hwf
    rw [encode, hdec, decodeByte_eq, if_neg hstx, if_neg (by rw [hr]; decide), if_neg hetx,
      if_neg (by rw [hfull]; decide)]
  | _ => cases hf

/-- The `EVENT` and `FUNC` rows: the names of the calls differ. -/
theorem decode_encode_of_call (x : Ctx) {i : Instr} (hf : i.format = .event ∨ i.format = .func) :
    decode x (encode x i) = .ok i := by
  cases i with
  | rxbyte | frameHandle | decode | xor8 | chkGen | chkVal | encode | send | dedupAccept | poll | tmrDue | txseqAlloc
  | reset => rfl
  | _ => rcases hf with hf | hf <;> cases hf

/-- The `FRAME_IN` rows: the fields are read back and select the row that wrote them. -/
theorem decode_encode_of_frameIn {x : Ctx} {i : Instr} (hf : i.format = .frameIn) (hwf : i.wf x.cfg = true) :
    decode x (encode x i) = .ok i := by
  have hcmd : fieldOk txtCmd = true := by decide
  cases i with
  | cmdPing node seq =>
    obtain ⟨hnode, hseq⟩ : fieldOk node = true ∧ seqOk x.cfg seq = true := by simpa [Instr.wf] using hwf
    rw [encode, decode_bodyTemplate _ hcmd hnode hseq, decodeMessage_ping]
  | cmdStatus node seq =>
    obtain ⟨hnode, hseq⟩ : fieldOk node = true ∧ seqOk x.cfg seq = true := by simpa [Instr.wf] using hwf
    rw [encode, decode_bodyTemplate _ hcmd hnode hseq, decodeMessage_status]
  | cmdSetroute node seq value =>
    obtain ⟨⟨hnode, hseq⟩, -⟩ : (fieldOk node = true ∧ seqOk x.cfg seq = true) ∧ _ := by simpa [Instr.wf] using hwf
    rw [encode, decode_bodyTemplate _ hcmd hnode hseq, decodeMessage_setroute]
  | cmdSeteta node seq value =>
    obtain ⟨⟨hnode, hseq⟩, -⟩ : (fieldOk node = true ∧ seqOk x.cfg seq = true) ∧ _ := by simpa [Instr.wf] using hwf
    rw [encode, decode_bodyTemplate _ hcmd hnode hseq, decodeMessage_seteta]
  | cmdUnknown node seq data =>
    obtain ⟨⟨⟨hnode, hseq⟩, -⟩, hsel⟩ :
        ((fieldOk node = true ∧ seqOk x.cfg seq = true) ∧ _) ∧ selectCommand data = .unknown := by
      simpa [Instr.wf] using hwf
    rw [encode, decode_bodyTemplate _ hcmd hnode hseq,
      decodeMessage_unknown hsel]
  | typeOther type node seq data =>
    obtain ⟨⟨⟨⟨htype, hnode⟩, hseq⟩, -⟩, hother⟩ :
        (((fieldOk type = true ∧ fieldOk node = true) ∧ seqOk x.cfg seq = true) ∧ _) ∧ type ≠ txtCmd := by
      simpa [Instr.wf, isCommand] using hwf
    rw [encode, decode_bodyTemplate _ htype hnode hseq, decodeMessage_of_type_ne hother]
  | _ => cases hf

/-! The `FRAME_OUT` rows. -/

theorem decodeMessageOut_err (c : Config) (seq : Option Byte) (data : Text) :
    decodeMessageOut c ⟨txtErr, c.nodeId, seq, data⟩ = decodeErrOut ⟨txtErr, c.nodeId, seq, data⟩ := by
  rw [decodeMessageOut, if_neg (not_not_intro rfl), if_pos rfl]

/-- A heartbeat's type is not `ERR`. -/
theorem decodeMessageOut_hb (c : Config) (seq : Option Byte) :
    decodeMessageOut c ⟨txtHb, c.nodeId, seq, txtOk⟩ = .ok .tlmHb := by
  have herr : txtHb ≠ txtErr := by decide
  rw [decodeMessageOut, if_neg (not_not_intro rfl), if_neg herr, if_pos ⟨rfl, rfl⟩]

/-- An arrival is told by the first key of its data, whatever route follows. -/
theorem decodeMessageOut_arr (c : Config) (seq : Option Byte) (route : Text) (eta : U32) :
    decodeMessageOut c ⟨txtArr, c.nodeId, seq, arrivalData c route eta⟩ = .ok .tlmArr := by
  have herr : txtArr ≠ txtErr := by decide
  have hhb : txtArr ≠ txtHb := by decide
  have hkey : startsWith (arrivalData c route eta) txtRouteEq = true := by
    simp only [arrivalData, List.append_assoc]
    exact (startsWith_iff _ _).2 ⟨_, rfl⟩
  rw [decodeMessageOut, if_neg (not_not_intro rfl), if_neg herr, if_neg (fun h => hhb h.1), if_pos ⟨rfl, hkey⟩]

theorem decodeMessageOut_dl (c : Config) (seq : Option Byte) :
    decodeMessageOut c ⟨txtDl, c.nodeId, seq, txtFiveMin⟩ = .ok .tlmDl := by
  have herr : txtDl ≠ txtErr := by decide
  have hhb : txtDl ≠ txtHb := by decide
  have harr : txtDl ≠ txtArr := by decide
  rw [decodeMessageOut, if_neg (not_not_intro rfl), if_neg herr, if_neg (fun h => hhb h.1), if_neg (fun h => harr h.1),
    if_pos ⟨rfl, rfl⟩]

/-- The two literals are told by their reason and the number 0 (log entry 11). -/
theorem decodeErrOut_txTooLong (node : Text) {seq : Option Byte} (h : seq.getD 0 = 0) :
    decodeErrOut ⟨txtErr, node, seq, txtTxTooLong⟩ = .ok .litTxTooLong := by
  have hformat : txtTxTooLong ≠ txtFormat := by decide
  have hchk : txtTxTooLong ≠ txtChk := by decide
  have hovf : txtTxTooLong ≠ txtRxOverflow := by decide
  rw [decodeErrOut, if_neg hformat, if_neg hchk, if_neg hovf, if_pos ⟨rfl, h⟩]

theorem decodeErrOut_frmTooLong (node : Text) {seq : Option Byte} (h : seq.getD 0 = 0) :
    decodeErrOut ⟨txtErr, node, seq, txtFrmTooLong⟩ = .ok .litFrmTooLong := by
  have hformat : txtFrmTooLong ≠ txtFormat := by decide
  have hchk : txtFrmTooLong ≠ txtChk := by decide
  have hovf : txtFrmTooLong ≠ txtRxOverflow := by decide
  have htx : txtFrmTooLong ≠ txtTxTooLong := by decide
  rw [decodeErrOut, if_neg hformat, if_neg hchk, if_neg hovf, if_neg (fun e => htx e.1), if_pos ⟨rfl, h⟩]

/-- A framed output, its two delimiters taken off, is read as the message of its body. -/
theorem decodeFrameOut_framed {c : Config} {p : Text} {m : Message} (h : splitInput c p = .ok m) :
    decodeFrameOut c (framed p) = decodeMessageOut c m := by
  have hlast : (bodyOf p ++ [ETX]).getLast? = some ETX := List.getLast?_concat
  have hinit : (bodyOf p ++ [ETX]).dropLast = bodyOf p := List.dropLast_concat
  have hbody : decodeBody c (bodyOf p) = .ok m := (decodeBody_bodyOf c p).trans h
  show decodeFrameOut c (STX :: (bodyOf p ++ [ETX])) = _
  rw [decodeFrameOut, if_pos ⟨rfl, hlast⟩, hinit, hbody]

/-- A frame of this node is read as the row of its `TYPE`, `SEQ` and `DATA`. -/
theorem decode_frameOut_joinText {x : Ctx} {type seqTxt : Text} (data : Text) (hc : x.cfg.wf = true)
    (htype : FS ∉ type) (hseq : FS ∉ seqTxt) :
    decode x (.frameOut (framed (joinText x.cfg type x.cfg.nodeId seqTxt data))) =
      decodeMessageOut x.cfg
        ⟨type, x.cfg.nodeId, if x.cfg.seqAware then some (seqOfText seqTxt) else none, data⟩ :=
  decodeFrameOut_framed (splitInput_joinText x.cfg data htype (fs_notMem_nodeId hc) hseq)

theorem decode_outTemplate {x : Ctx} {type : Text} (data : Text) (hc : x.cfg.wf = true) (htype : FS ∉ type) :
    decode x (.frameOut (outTemplate x type data)) =
      decodeMessageOut x.cfg ⟨type, x.cfg.nodeId, if x.cfg.seqAware then some x.txSeq else none, data⟩ := by
  rw [outTemplate, joinPayload, decode_frameOut_joinText data hc htype (fs_notMem_decSeq x.txSeq), seqOfText_decSeq]

/-- The literal frames carry the number 0, or none (R181). -/
theorem decode_literalFrame {x : Ctx} (reason : Text) (hc : x.cfg.wf = true) :
    ∃ seq : Option Byte, seq.getD 0 = 0 ∧
      decode x (.frameOut (literalFrame x.cfg reason)) = decodeErrOut ⟨txtErr, x.cfg.nodeId, seq, reason⟩ := by
  refine ⟨if x.cfg.seqAware then some (seqOfText [0x30]) else none, ?_, ?_⟩
  · cases x.cfg.seqAware <;> decide
  · rw [literalFrame, decode_frameOut_joinText reason hc (by decide) (by decide), decodeMessageOut_err]

/-- The `FRAME_OUT` rows: the `TYPE` and the `DATA` that a row writes tell it from the others (log entry 11). -/
theorem decode_encode_of_frameOut {x : Ctx} {i : Instr} (hf : i.format = .frameOut) (hc : x.cfg.wf = true) :
    decode x (encode x i) = .ok i := by
  have herr : FS ∉ txtErr := by decide
  cases i with
  | errFormat => rw [encode, decode_outTemplate _ hc herr, decodeMessageOut_err]; rfl
  | errChk => rw [encode, decode_outTemplate _ hc herr, decodeMessageOut_err]; rfl
  | errRxOverflow => rw [encode, decode_outTemplate _ hc herr, decodeMessageOut_err]; rfl
  | litTxTooLong =>
    obtain ⟨seq, h0, hdec⟩ := decode_literalFrame txtTxTooLong hc
    rw [encode, litTxTooLongFrame, hdec, decodeErrOut_txTooLong _ h0]
  | litFrmTooLong =>
    obtain ⟨seq, h0, hdec⟩ := decode_literalFrame txtFrmTooLong hc
    rw [encode, litFrmTooLongFrame, hdec, decodeErrOut_frmTooLong _ h0]
  | tlmHb => rw [encode, decode_outTemplate _ hc (by decide), decodeMessageOut_hb]
  | tlmArr => rw [encode, decode_outTemplate _ hc (by decide), decodeMessageOut_arr]
  | tlmDl => rw [encode, decode_outTemplate _ hc (by decide), decodeMessageOut_dl]
  | _ => cases hf

/-- Settles O6, format by format. -/
theorem decodeOfEncodeGivesTheInstruction : Obligations.DecodeOfEncodeGivesTheInstruction := by
  intro x i hc hwf hsel
  cases hf : i.format with
  | byte => exact decode_encode_of_byte hf hwf hsel
  | frameIn => exact decode_encode_of_frameIn hf hwf
  | frameOut => exact decode_encode_of_frameOut hf hc
  | event => exact decode_encode_of_call x (.inl hf)
  | func => exact decode_encode_of_call x (.inr hf)

/-- A table word of one byte is read by the `BYTE` rows, with `receiving` as its row requires (log entry 14). -/
theorem decodeTableWord_of_byte {w : Nat} {b : Byte} (h : tableBytes 8 w = [b]) :
    decodeTableWord 8 w = some (decodeByte (b == ETX) false b) := by
  unfold decodeTableWord
  rw [h]
  rfl

/-- Settles O9: the byte rows of the two delimiters and of an idle byte, and four words that are the codes of their rows. -/
theorem sampleWordsDecode : Obligations.SampleWordsDecode := by
  refine ⟨decodeTableWord_of_byte (b := 0x02) (by decide), decodeTableWord_of_byte (b := 0x03) (by decide),
    decodeTableWord_of_byte (b := 0x0A) (by decide), ?_, ?_, ?_, ?_⟩
  · exact decode_encode_of_byte (i := .rxData 0x7C) rfl (by decide) (by decide)
  · exact decode_encode_of_byte (i := .rxOvf 0x41) rfl (by decide) (by decide)
  · have hdec := decode_encode_of_frameIn (x := refCtx) (i := .cmdPing [0x48, 0x4F, 0x53, 0x54] (some 7)) rfl (by decide)
    rw [← hdec]
    exact congrArg (decode refCtx) (by decide)
  · have hdec := decode_encode_of_frameOut (x := refCtx) (i := .tlmHb) rfl (by decide)
    rw [← hdec]
    exact congrArg (decode refCtx) (by decide)

end Sys2Proof.Machine
end

section
/-! Decimal numbers: what `dec` prints, `parse_int` reads, and `SETETA=` followed by `STATUS` shows (R100, R101). -/

namespace Sys2Proof.Machine

/-! Digits. -/

theorem toNat_decDigit (n : Nat) : (decDigit n).toNat = 0x30 + n % 10 := by
  rw [decDigit, BitVec.toNat_ofNat]
  omega

theorem isDigit_iff (b : Byte) : isDigit b = true ↔ 0x30 ≤ b.toNat ∧ b.toNat ≤ 0x39 := by
  simp [isDigit, BitVec.le_def]

theorem isDigit_decDigit (n : Nat) : isDigit (decDigit n) = true := by
  rw [isDigit_iff, toNat_decDigit]
  omega

/-- One more digit, after a number already read. -/
theorem parseDigits_decDigit (v n : Nat) (t : Text) :
    parseDigits v (decDigit n :: t) = parseDigits (10 * v + n % 10) t := by
  have hval : (decDigit n).toNat - 0x30 = n % 10 := by rw [toNat_decDigit]; omega
  rw [parseDigits, if_pos (isDigit_decDigit n), hval]

/-- R101: the first byte that is no digit ends the number. -/
theorem parseDigits_of_notDigit (v : Nat) {t : Text} (h : ∀ b rest, t = b :: rest → isDigit b = false) :
    parseDigits v t = v := by
  cases t with
  | nil => rfl
  | cons b rest => rw [parseDigits, h b rest rfl, if_neg Bool.false_ne_true]

/-! Numbers. -/

/-- The fewest digits of a number read back as it, and what follows them is still to be read. -/
theorem parseDigits_decNatFuel {fuel n : Nat} (h : n ≤ fuel) (t : Text) :
    parseDigits 0 (decNatFuel fuel n ++ t) = parseDigits n t := by
  induction fuel generalizing n t with
  | zero =>
    obtain rfl : n = 0 := Nat.le_zero.1 h
    exact parseDigits_decDigit 0 0 t
  | succ fuel ih =>
    rw [decNatFuel]
    split_ifs with hn
    · rw [List.singleton_append, parseDigits_decDigit, Nat.mod_eq_of_lt hn, Nat.mul_zero, Nat.zero_add]
    · have hdiv : n / 10 ≤ fuel := by omega
      rw [List.append_assoc, List.singleton_append, ih hdiv, parseDigits_decDigit, Nat.div_add_mod]

theorem parseDigits_decNat (n : Nat) (t : Text) : parseDigits 0 (decNat n ++ t) = parseDigits n t :=
  parseDigits_decNatFuel (Nat.le_refl n) t

/-- A text without a sign is read from its first byte on. -/
theorem parseInt_of_noSign {t : Text} (h : ∀ b rest, t = b :: rest → b ≠ 0x2D ∧ b ≠ 0x2B) :
    parseInt t = parseDigits 0 t := by
  cases t with
  | nil => rfl
  | cons b rest =>
    obtain ⟨hminus, hplus⟩ := h b rest rfl
    rw [parseInt, if_neg hminus, if_neg hplus]

theorem decNatFuel_ne_nil (fuel n : Nat) : decNatFuel fuel n ≠ [] := by
  cases fuel with
  | zero => exact List.cons_ne_nil _ _
  | succ fuel =>
    rw [decNatFuel]
    split_ifs
    · exact List.cons_ne_nil _ _
    · exact List.append_ne_nil_of_right_ne_nil _ (List.cons_ne_nil _ _)

/-- The text of a natural number begins with a digit, hence with no sign. -/
theorem decNat_append_noSign (n : Nat) (t : Text) : ∀ b rest, decNat n ++ t = b :: rest → b ≠ 0x2D ∧ b ≠ 0x2B := by
  intro b rest h
  obtain ⟨d, ds, hd⟩ := List.exists_cons_of_ne_nil (decNatFuel_ne_nil n n)
  obtain ⟨k, -, rfl⟩ := mem_decNatFuel n n (b := d) (hd ▸ List.mem_cons_self)
  have hb : decDigit k = b := by
    rw [decNat, hd] at h
    exact (List.cons.inj h).1
  have hdigit : isDigit b = true := hb ▸ isDigit_decDigit k
  constructor <;> rintro rfl <;> exact absurd hdigit (by decide)

/-- R100 and R101: `parse_int` undoes `dec`, whatever follows that is no digit. -/
theorem parseInt_dec_append (v : Int) {t : Text} (h : ∀ b rest, t = b :: rest → isDigit b = false) :
    parseInt (dec v ++ t) = v := by
  cases v with
  | ofNat n =>
    show parseInt (decNat n ++ t) = _
    rw [parseInt_of_noSign (decNat_append_noSign n t), parseDigits_decNat, parseDigits_of_notDigit n h]
    rfl
  | negSucc n =>
    show -(parseDigits 0 (decNat (n + 1) ++ t) : Int) = _
    rw [parseDigits_decNat, parseDigits_of_notDigit (n + 1) h]
    rfl

/-- Text that begins with neither a digit nor a sign is read as 0 (R101). -/
theorem parseInt_of_noNumber {t : Text} (h : ∀ b rest, t = b :: rest → isDigit b = false ∧ b ≠ 0x2D ∧ b ≠ 0x2B) :
    parseInt t = 0 := by
  rw [parseInt_of_noSign fun b rest e => (h b rest e).2, parseDigits_of_notDigit 0 fun b rest e => (h b rest e).1]
  rfl

/-- A number of the range of an `i32` is not wrapped. -/
theorem toInt_wrapI32 {n : Int} (hlo : -2 ^ 31 ≤ n) (hhi : n < 2 ^ 31) : (wrapI32 n).toInt = n :=
  BitVec.toInt_ofInt_eq_self (by decide) hlo hhi

/-! The two commands. -/

/-- R225. -/
theorem exec_cmdSeteta (node : Text) (seq : Option Byte) (value : Text) (s : State) :
    exec (.cmdSeteta node seq value) s = .next ((s.setEtaMinutes (wrapI32 (parseInt value))).transmit
      (sentFrame s.cfg txtAck (seqOperand seq) txtEtaSet)) :=
  congrArg Host.Outcome.next (reply_eq txtAck seq txtEtaSet (s.setEtaMinutes (wrapI32 (parseInt value))))

/-- R223. -/
theorem exec_cmdStatus (node : Text) (seq : Option Byte) (s : State) :
    exec (.cmdStatus node seq) s = .next (s.transmit
      (sentFrame s.cfg txtStatus (seqOperand seq) (statusData s.cfg s.routeId s.etaMinutes))) :=
  congrArg Host.Outcome.next (reply_eq txtStatus seq (statusData s.cfg s.routeId s.etaMinutes) s)

theorem State.transmit_transmit (s : State) (f g : Text) :
    (s.transmit f).transmit g = { s.transmit f with tx := s.tx ++ [f, g] } := by
  simp [State.transmit]

/-- Settles O42: `parse_int` undoes `dec`, the register holds the number unwrapped, and `STATUS` prints it again. -/
theorem setEtaThenStatusShowsTheNumber : Obligations.SetEtaThenStatusShowsTheNumber := by
  refine ⟨fun s node₁ node₂ tail q₁ q₂ n hlo hhi htail => ?_, fun s node value seq hvalue => ?_⟩
  · have heta := toInt_wrapI32 hlo hhi
    refine ⟨_, exec_cmdSeteta node₁ (some q₁) (dec n ++ tail) s, ?_, ?_⟩
    · rw [parseInt_dec_append n htail]
      exact heta
    · have hshown : decI32 (wrapI32 n) = dec n := congrArg dec heta
      rw [parseInt_dec_append n htail, exec_cmdStatus]
      rw [State.transmit_transmit, State.transmit_etaMinutes, State.setEtaMinutes_etaMinutes, statusData, hshown]
      rfl
  · refine ⟨_, exec_cmdSeteta node seq value s, ?_⟩
    rw [parseInt_of_noNumber hvalue]
    rfl

end Sys2Proof.Machine
end

section
/-! The handling of a frame apart from the assembler: it runs the same whatever the assembler holds, and leaves the assembler as it
is (R220, R293). -/

namespace Sys2Proof.Machine

/-- Sets the fields that no handling of a frame reads or writes: those of the assembler, and the returned value. -/
def State.setAssembler (s : State) (receiving : Bool) (buf : Text) (r : Ret) : State :=
  ((s.setReceiving receiving).setRxBuf buf).setRet r

theorem restart_eq_setAssembler (v : Bool) (s : State) : restart v s = s.setAssembler v [] s.ret := rfl

/-- A command runs the same whatever the assembler holds. -/
theorem runCommand_setAssembler (seq : Option Byte) (d : Text) (s : State) (v : Bool) (buf : Text) (r : Ret) :
    runCommand seq d (s.setAssembler v buf r) = (runCommand seq d s).setAssembler v buf r := by
  unfold runCommand
  cases selectCommand d with
  | ping => simp only [cmdPing, reply_eq]; rfl
  | status => simp only [cmdStatus, reply_eq]; rfl
  | setroute value => simp only [cmdSetroute, reply_eq, writeRoute_eq]; rfl
  | seteta value => simp only [cmdSeteta, reply_eq]; rfl
  | unknown => simp only [cmdUnknown, takeError, reply_eq]; rfl

/-- R210: the duplicate test reads and writes the watermark only. -/
theorem acceptCommand_setAssembler (seq : Option Byte) (s : State) (v : Bool) (buf : Text) (r : Ret) :
    acceptCommand seq (s.setAssembler v buf r) =
      ((acceptCommand seq s).1, (acceptCommand seq s).2.setAssembler v buf r) := by
  have hmark : (s.setAssembler v buf r).lastHostSeq = s.lastHostSeq := rfl
  have hcfg : (s.setAssembler v buf r).cfg = s.cfg := rfl
  unfold acceptCommand dedupAccept
  rw [hcfg, hmark]
  split_ifs <;> rfl

theorem handleMessage_setAssembler (m : Message) (s : State) (v : Bool) (buf : Text) (r : Ret) :
    handleMessage m (s.setAssembler v buf r) = (handleMessage m s).setAssembler v buf r := by
  have hcfg : (s.setAssembler v buf r).cfg = s.cfg := rfl
  simp only [handleMessage, acceptCommand_setAssembler, runCommand_setAssembler, typeOther, takeError, reply_eq, hcfg]
  split_ifs <;> rfl

/-- `FRAME.HANDLE` of a body that decodes. -/
theorem frameHandle_of_ok {f : Text} {s : State} {m : Message} (h : decodeBody s.cfg f = .ok m) :
    frameHandle f s = handleMessage m s := by
  simp only [frameHandle, h]

/-- R220: a body is handled the same whatever the assembler holds, and its handling leaves the assembler alone. -/
theorem frameHandle_setAssembler (f : Text) (s : State) (v : Bool) (buf : Text) (r : Ret) :
    frameHandle f (s.setAssembler v buf r) = (frameHandle f s).setAssembler v buf r := by
  have hcfg : (s.setAssembler v buf r).cfg = s.cfg := rfl
  cases h : decodeBody s.cfg f with
  | error e =>
    cases e with
    | format => simp only [frameHandle, hcfg, h, takeError, sendAuto_eq]; rfl
    | checksumMismatch => simp only [frameHandle, hcfg, h, takeError, sendAuto_eq]; rfl
  | ok m => rw [frameHandle_of_ok h, frameHandle_of_ok (s := s.setAssembler v buf r) h, handleMessage_setAssembler]

/-- A body handled from a cleared assembler leaves it cleared, whatever errors it meets (R139, R293). -/
theorem frameHandle_restart (f : Text) (s : State) :
    (frameHandle f (restart false s)).receiving = false ∧ (frameHandle f (restart false s)).rxBuf = [] ∧
      (frameHandle f (restart false s)).ret = s.ret := by
  rw [restart_eq_setAssembler, frameHandle_setAssembler]
  exact ⟨rfl, rfl, rfl⟩

/-- What a node holds as returned value has no part in the handling of a body. -/
theorem frameHandle_setRet (f : Text) (s : State) (r : Ret) :
    frameHandle f (s.setRet r) = (frameHandle f s).setRet r := by
  have hself : frameHandle f s = (frameHandle f s).setAssembler s.receiving s.rxBuf s.ret :=
    frameHandle_setAssembler f s s.receiving s.rxBuf s.ret
  rw [hself]
  exact frameHandle_setAssembler f s s.receiving s.rxBuf r

end Sys2Proof.Machine
end

section
/-! The frame assembler, row by row: the state that each of the five rows of R130 leaves, and the row that an arriving byte is
read as and runs. -/

namespace Sys2Proof.Machine

/-! The five rows. -/

theorem exec_rxStx (s : State) : exec .rxStx s = .next (restart true s) := rfl

theorem exec_rxIdle (b : Byte) (s : State) : exec (.rxIdle b) s = .next s := rfl

/-- R132: the body handed over is everything stored. -/
theorem exec_rxEtx (s : State) : exec .rxEtx s = .next (frameHandle s.rxBuf (restart false s)) := by
  rw [← memRead_rxbuf s]
  rfl

/-- R133. -/
theorem exec_rxData_of_room {s : State} (hroom : s.rxBuf.length < s.cfg.rxCap) (b : Byte) :
    exec (.rxData b) s = .next (s.setRxBuf (s.rxBuf ++ [b])) := by
  rcases appendRx_cases b s with ⟨hfull, -⟩ | ⟨-, hnext⟩
  · exact absurd hroom (Nat.not_lt.2 hfull)
  · exact hnext

/-- R134, R282: the number is allocated from `tx_seq` (D18). -/
theorem exec_rxOvf (b : Byte) (s : State) :
    exec (.rxOvf b) s = .next (((restart false s).setTxSeq (s.txSeq + 1)).transmit
      (sentFrame s.cfg txtErr s.txSeq txtRxOverflow)) :=
  congrArg Host.Outcome.next (sendAuto_eq txtErr txtRxOverflow (restart false s))

/-! The row that an arriving byte runs, by its class and the state. -/

theorem exec_rxbyte_stx (s : State) : exec (.rxbyte 0x02) s = exec .rxStx s := by
  rw [exec_rxbyte_eq, if_pos rfl]

theorem exec_rxbyte_idle {s : State} {b : Byte} (hstx : b ≠ 0x02) (hr : s.receiving = false) :
    exec (.rxbyte b) s = exec (.rxIdle b) s := by
  rw [exec_rxbyte_eq, if_neg hstx, if_pos hr]

theorem exec_rxbyte_etx {s : State} (hr : s.receiving = true) : exec (.rxbyte 0x03) s = exec .rxEtx s := by
  rw [exec_rxbyte_eq, if_neg (by decide), if_neg (by rw [hr]; decide), if_pos rfl]

theorem exec_rxbyte_data {s : State} {b : Byte} (hstx : b ≠ 0x02) (hetx : b ≠ 0x03) (hr : s.receiving = true)
    (hroom : s.rxBuf.length < s.cfg.rxCap) : exec (.rxbyte b) s = exec (.rxData b) s := by
  rw [exec_rxbyte_eq, if_neg hstx, if_neg (by rw [hr]; decide), if_neg hetx, if_pos hroom]

theorem exec_rxbyte_ovf {s : State} {b : Byte} (hstx : b ≠ 0x02) (hetx : b ≠ 0x03) (hr : s.receiving = true)
    (hfull : s.cfg.rxCap ≤ s.rxBuf.length) : exec (.rxbyte b) s = exec (.rxOvf b) s := by
  rw [exec_rxbyte_of_full hfull, if_neg hstx, if_neg (by rw [hr]; decide), if_neg hetx]

/-- The step that takes a byte is the byte's event, its end included. -/
theorem step_of_exec_rxbyte {s t : State} {b : Byte} {rest : List Event} (hp : s.pending = .rxbyte b :: rest)
    (h : exec (.rxbyte b) (s.setPending rest) = .next t) : step s = .next (t.setRet .none) := by
  rw [exec_rxbyte_eq] at h
  rw [step_of_pending_cons hp (decode_rxbyte s b)]
  exact congrArg endEvent h

/-! The obligations about one byte. -/

/-- Settles O10: the row is chosen in the order of R130, and each of the five completes and returns nothing. -/
theorem byteRunsExactlyOneOperation : Obligations.ByteRunsExactlyOneOperation := by
  intro s b
  refine ⟨exec_rxbyte_eq s b, ?_, ?_⟩
  · rintro hr rfl
    rw [exec_rxbyte_etx hr, exec_rxEtx]
    rfl
  · rw [exec_rxbyte_eq]
    split_ifs with hstx hidle hetx hroom
    · exact ⟨_, exec_rxStx s, rfl⟩
    · exact ⟨_, exec_rxIdle b s, rfl⟩
    · obtain ⟨-, -, hret⟩ := frameHandle_restart s.rxBuf s
      exact ⟨_, exec_rxEtx s, hret⟩
    · exact ⟨_, exec_rxData_of_room hroom b, rfl⟩
    · exact ⟨_, exec_rxOvf b s, rfl⟩

/-- Settles O11: the row, the byte and its step. -/
theorem startDelimiterRestartsTheAssembler : Obligations.StartDelimiterRestartsTheAssembler := fun s =>
  ⟨exec_rxStx s, exec_rxbyte_stx s, fun rest hp => step_of_exec_rxbyte hp (exec_rxbyte_stx (s.setPending rest))⟩

/-- Settles O12: the frame handling starts from the cleared assembler, leaves it so, and sends at most one frame. -/
theorem endDelimiterHandsOverTheBody : Obligations.EndDelimiterHandsOverTheBody := by
  intro s
  obtain ⟨hrec, hbuf, -⟩ := frameHandle_restart s.rxBuf s
  have hclear : emitsAtMost 0 s (restart false s) := emitsAtMost_of_eq rfl rfl rfl
  obtain ⟨-, -, sent, htx, hlen⟩ := emitsAtMost_frameHandle hclear s.rxBuf
  exact ⟨_, sent, exec_rxEtx s, rfl, hrec, hbuf, htx, hlen, fun hr => (exec_rxbyte_etx hr).trans (exec_rxEtx s)⟩

/-- Settles O13: the append, read back byte by byte. -/
theorem dataByteIsStoredAtTheEnd : Obligations.DataByteIsStoredAtTheEnd := by
  intro s b hroom
  have hnext := exec_rxData_of_room hroom b
  obtain ⟨hat, hother, hroute⟩ := memByte_appendRx b s _ hnext
  have hlen : (s.setRxBuf (s.rxBuf ++ [b])).rxLen = s.rxLen + 1 := List.length_append
  exact ⟨_, hnext, rfl, hat, hlen, hother, hroute,
    fun hstx hetx hr => (exec_rxbyte_data hstx hetx hr hroom).trans hnext⟩

/-- Settles O15: the row's next state, and the byte that selects the row. -/
theorem overflowResetsAndReports : Obligations.OverflowResetsAndReports := fun s b =>
  ⟨_, exec_rxOvf b s, rfl, fun hstx hetx hr hfull =>
    (exec_rxbyte_ovf hstx hetx hr (Nat.le_of_eq hfull.symm)).trans (exec_rxOvf b s)⟩

/-- Settles O16: the row, and the byte that selects it. -/
theorem byteOutsideAFrameIsDropped : Obligations.ByteOutsideAFrameIsDropped := fun s b =>
  ⟨exec_rxIdle b s, fun hr hstx => (exec_rxbyte_idle hstx hr).trans (exec_rxIdle b s)⟩

/-! The row that a byte is read as. -/

/-- R91: the bytes that are no delimiters. -/
theorem dataByte_iff (b : Byte) : dataByte b = true ↔ b ≠ 0x02 ∧ b ≠ 0x03 := by
  rw [dataByte, Bool.and_eq_true, bne_iff_ne, bne_iff_ne]
  exact Iff.rfl

/-- The row read from a byte is well formed and admitted, and the byte is its code (R91, R120, R130). -/
theorem decodeByte_admitted (x : Ctx) (b : Byte) :
    (decodeByte x.receiving x.rxFull b).format = .byte ∧ (decodeByte x.receiving x.rxFull b).wf x.cfg = true ∧
      (decodeByte x.receiving x.rxFull b).selectableIn x = true ∧
      encode x (decodeByte x.receiving x.rxFull b) = .byte b := by
  rw [decodeByte_eq]
  split_ifs with hstx hidle hetx hroom
  · exact ⟨rfl, rfl, rfl, by rw [hstx]; rfl⟩
  · exact ⟨rfl, bne_iff_ne.2 hstx, by rw [Instr.selectableIn, hidle]; rfl, rfl⟩
  · exact ⟨rfl, rfl, Bool.eq_true_of_not_eq_false hidle, by rw [hetx]; rfl⟩
  · exact ⟨rfl, (dataByte_iff b).2 ⟨hstx, hetx⟩, by simp [Instr.selectableIn, hidle, hroom], rfl⟩
  · exact ⟨rfl, (dataByte_iff b).2 ⟨hstx, hetx⟩, by simp [Instr.selectableIn, hidle, hroom], rfl⟩

/-- Settles O7: the row read from the byte is admitted, and any other such row would be read back from the same byte. -/
theorem everyByteDecodesToOneAdmittedRow : Obligations.EveryByteDecodesToOneAdmittedRow := by
  intro x b
  obtain ⟨hformat, hwf, hsel, hcode⟩ := decodeByte_admitted x b
  refine ⟨_, rfl, hformat, hwf, hsel, hcode, fun j hj hjwf hjsel hjcode => ?_⟩
  have hback := decode_encode_of_byte hj hjwf hjsel
  rw [hjcode] at hback
  exact (Except.ok.inj hback).symm

/-! The byte after a frame. -/

/-- Settles O46: both bytes leave the assembler clear, and the next step takes the start delimiter as any state does. -/
theorem assemblerIsReadyAfterEveryFrame : Obligations.AssemblerIsReadyAfterEveryFrame := by
  intro s t b rest hp hr hstx hends hstep
  have hclear : t.receiving = false ∧ t.rxBuf = [] ∧ t.ret = .none := by
    obtain ⟨u, hu, hcases⟩ := step_rxbyte_cases hp
    obtain rfl := Host.Outcome.next.inj (hu.symm.trans hstep)
    rcases hcases with ⟨hb, -⟩ | ⟨-, hidle, -⟩ | ⟨-, -, rfl⟩ | ⟨-, hetx, -, hroom, -⟩ | ⟨-, -, -, -, rfl⟩
    · exact absurd hb hstx
    · exact absurd (hr.symm.trans hidle) (by decide)
    · obtain ⟨hrec, hbuf, -⟩ := frameHandle_restart s.rxBuf (s.setPending (.rxbyte 0x02 :: rest))
      exact ⟨hrec, hbuf, rfl⟩
    · exact absurd hroom (Nat.not_lt.2 (hends.resolve_left hetx))
    · rw [sendAuto_eq]
      exact ⟨rfl, rfl, rfl⟩
  obtain ⟨hrec, hbuf, hret⟩ := hclear
  obtain ⟨-, hpending, -⟩ := step_rxbyte_emitsAtMost hp hstep
  obtain ⟨-, -, hnext⟩ := startDelimiterRestartsTheAssembler t
  refine ⟨hrec, hbuf, ?_⟩
  rw [hnext rest hpending, ← hbuf, ← hret]

end Sys2Proof.Machine
end

section
/-! Strings of bytes: what a run of the machine leaves after a stretch of one class, and from that what it leaves after noise, after a
frame that fits, after one that does not, and after a `PING` (R138). -/

namespace Sys2Proof.Machine

/-! Runs. -/

/-- A run of any machine begins with a step that does not stop. -/
theorem core_run_succ_eq_next (M : Host.Core) (n : Nat) (s u : M.State) :
    M.run (n + 1) s = .next u ↔ ∃ t, M.step s = .next t ∧ M.run n t = .next u := by
  rw [Host.Core.run]
  cases M.step s with
  | next t => exact ⟨fun h => ⟨t, rfl, h⟩, fun ⟨_, ht, h⟩ => Host.Outcome.next.inj ht ▸ h⟩
  | fault r => exact ⟨nofun, fun ⟨_, ht, _⟩ => nomatch ht⟩
  | refused r => exact ⟨nofun, fun ⟨_, ht, _⟩ => nomatch ht⟩

theorem runsTo_succ_iff (n : Nat) (s u : State) : runsTo (n + 1) s u ↔ ∃ t, step s = .next t ∧ runsTo n t u :=
  core_run_succ_eq_next Sys2Proof.core n s u

theorem runsTo_succ {n : Nat} {s t u : State} (hstep : step s = .next t) (hrun : runsTo n t u) : runsTo (n + 1) s u :=
  (runsTo_succ_iff n s u).2 ⟨t, hstep, hrun⟩

theorem runsTo_one {s t : State} (hstep : step s = .next t) : runsTo 1 s t :=
  runsTo_succ hstep rfl

theorem runsTo_add {m n : Nat} {s t u : State} (hst : runsTo m s t) (htu : runsTo n t u) : runsTo (m + n) s u := by
  induction m generalizing s with
  | zero =>
    obtain rfl : s = t := Host.Outcome.next.inj hst
    rwa [Nat.zero_add]
  | succ m ih =>
    obtain ⟨v, hstep, hv⟩ := (runsTo_succ_iff m s t).1 hst
    rw [Nat.succ_add]
    exact runsTo_succ hstep (ih hv)

/-! The step of an arriving byte, by its class. -/

/-- R135: a dropped byte. -/
theorem step_idle {s : State} {b : Byte} {rest : List Event} (hp : s.pending = .rxbyte b :: rest) (hstx : b ≠ 0x02)
    (hr : s.receiving = false) : step s = .next { s with pending := rest, ret := .none } :=
  step_of_exec_rxbyte hp ((exec_rxbyte_idle (s := s.setPending rest) hstx hr).trans (exec_rxIdle b _))

/-- R133: a stored byte. -/
theorem step_data {s : State} {b : Byte} {rest : List Event} (hp : s.pending = .rxbyte b :: rest) (hstx : b ≠ 0x02)
    (hetx : b ≠ 0x03) (hr : s.receiving = true) (hroom : s.rxBuf.length < s.cfg.rxCap) :
    step s = .next { s with rxBuf := s.rxBuf ++ [b], pending := rest, ret := .none } :=
  step_of_exec_rxbyte hp ((exec_rxbyte_data (s := s.setPending rest) hstx hetx hr hroom).trans
    (exec_rxData_of_room (s := s.setPending rest) hroom b))

/-- R132: an end delimiter. The returned value is cleared before the handling or after it, to the same effect. -/
theorem step_etx {s : State} {rest : List Event} (hp : s.pending = .rxbyte 0x03 :: rest) (hr : s.receiving = true)
    (r : Ret) : step s = .next
      { frameHandle s.rxBuf { s with receiving := false, rxBuf := [], pending := rest, ret := r } with ret := .none } := by
  have hexec := (exec_rxbyte_etx (s := s.setPending rest) hr).trans (exec_rxEtx (s.setPending rest))
  have hret : frameHandle s.rxBuf ((restart false (s.setPending rest)).setRet r) =
      (frameHandle s.rxBuf (restart false (s.setPending rest))).setRet r := frameHandle_setRet _ _ r
  rw [step_of_exec_rxbyte hp hexec]
  have hnext := congrArg
    (fun t : State => (Host.Outcome.next (t.setRet .none) : Host.Outcome State Fault Refusal)) hret
  exact hnext.symm

/-- R134: a byte that finds the buffer full. -/
theorem step_ovf {s : State} {b : Byte} {rest : List Event} (hp : s.pending = .rxbyte b :: rest) (hstx : b ≠ 0x02)
    (hetx : b ≠ 0x03) (hr : s.receiving = true) (hfull : s.cfg.rxCap ≤ s.rxBuf.length) :
    step s = .next { s with receiving := false, rxBuf := [], txSeq := s.txSeq + 1, pending := rest, ret := .none,
                            tx := s.tx ++ [sentFrame s.cfg txtErr s.txSeq txtRxOverflow] } :=
  step_of_exec_rxbyte hp ((exec_rxbyte_ovf (s := s.setPending rest) hstx hetx hr hfull).trans (exec_rxOvf b _))

/-! Stretches of bytes of one class. -/

theorem delivers_append (d e : Text) : delivers (d ++ e) = delivers d ++ delivers e := List.map_append

theorem noDelims_cons (b : Byte) (d : Text) :
    noDelims (b :: d) = true ↔ (b ≠ 0x02 ∧ b ≠ 0x03) ∧ noDelims d = true := by
  rw [← dataByte_iff, ← Bool.and_eq_true]
  rfl

/-- R135: outside a frame a run drops every byte but the start delimiter. -/
theorem runsTo_idle {s : State} {d : Text} {rest : List Event} (hp : s.pending = delivers d ++ rest)
    (hr : s.receiving = false) (hret : s.ret = .none) (hd : 0x02 ∉ d) :
    runsTo d.length s { s with pending := rest } := by
  induction d generalizing s with
  | nil =>
    obtain rfl : s.pending = rest := hp
    rfl
  | cons b d ih =>
    obtain ⟨hstx, hd⟩ := List.ne_and_not_mem_of_not_mem_cons hd
    have hstep := step_idle hp hstx.symm hr
    rw [← hret] at hstep
    exact runsTo_succ hstep (ih rfl hr hret hd)

/-- R133: inside a frame a run stores bytes that are no delimiters, one after the other, as long as there is room. -/
theorem runsTo_data {s : State} {d : Text} {rest : List Event} (hp : s.pending = delivers d ++ rest)
    (hr : s.receiving = true) (hret : s.ret = .none) (hd : noDelims d = true)
    (hroom : s.rxBuf.length + d.length ≤ s.cfg.rxCap) :
    runsTo d.length s { s with rxBuf := s.rxBuf ++ d, pending := rest } := by
  induction d generalizing s with
  | nil =>
    obtain rfl : s.pending = rest := hp
    rw [List.append_nil]
    rfl
  | cons b d ih =>
    obtain ⟨⟨hstx, hetx⟩, hd⟩ := (noDelims_cons b d).1 hd
    rw [List.length_cons] at hroom
    have hstep := step_data hp hstx hetx hr (by omega)
    rw [← hret] at hstep
    have hrest : (s.rxBuf ++ [b]).length + d.length ≤ s.cfg.rxCap := by
      rw [List.length_append, List.length_singleton]
      omega
    rw [List.append_cons]
    exact runsTo_succ hstep (ih rfl hr hret hd hrest)

/-- R131 and R133: a start delimiter and a body that fits leave exactly the body stored, whatever was received before. -/
theorem runsTo_stx_data {s : State} {d : Text} {rest : List Event}
    (hp : s.pending = .rxbyte 0x02 :: (delivers d ++ rest)) (hd : noDelims d = true) (hlen : d.length ≤ s.cfg.rxCap) :
    runsTo (d.length + 1) s { s with receiving := true, rxBuf := d, pending := rest, ret := .none } := by
  obtain ⟨-, -, hstep⟩ := startDelimiterRestartsTheAssembler s
  have hroom : ([] : Text).length + d.length ≤ s.cfg.rxCap := by rwa [List.length_nil, Nat.zero_add]
  exact runsTo_succ (hstep _ hp) (runsTo_data rfl rfl rfl hd hroom)

/-! Noise and frames. -/

/-- Settles O19: the stretch of dropped bytes. -/
theorem noiseOutsideFramesChangesNothing : Obligations.NoiseOutsideFramesChangesNothing :=
  fun _ _ _ hp hr hret hd => runsTo_idle hp hr hret hd

/-- Settles O17: the body is stored whole, and the end delimiter hands it over. -/
theorem frameIsDeliveredWhole : Obligations.FrameIsDeliveredWhole := by
  intro s d rest hp hd hlen
  have hrun := runsTo_add (runsTo_stx_data hp hd hlen) (runsTo_one (step_etx rfl rfl s.ret))
  exact ⟨_, rfl, hrun⟩

/-- A string longer than `n` has a byte after its first `n`. -/
theorem exists_split_at {n : Nat} {d : Text} (h : n < d.length) : ∃ u b v, d = u ++ b :: v ∧ u.length = n :=
  ⟨d.take n, d[n], d.drop (n + 1), by rw [← List.drop_eq_getElem_cons h, List.take_append_drop],
    List.length_take_of_le (Nat.le_of_lt h)⟩

/-- Settles O18: the buffer is filled, the next byte reports the overflow, and what is left of the frame is noise. -/
theorem oversizedFrameIsReportedOnce : Obligations.OversizedFrameIsReportedOnce := by
  intro s d rest hp hd hlen
  obtain ⟨stored, b, lost, rfl, hstored⟩ := exists_split_at hlen
  rw [noDelims_append, Bool.and_eq_true, noDelims_cons] at hd
  obtain ⟨hstoredOk, hb, hlostOk⟩ := hd
  rw [delivers_append, List.append_assoc] at hp
  obtain ⟨hstx, hetx⟩ := hb
  have hnoise : 0x02 ∉ lost ++ [0x03] := by
    obtain ⟨hstx', -⟩ := (noDelims_iff lost).1 hlostOk
    rw [List.mem_append, List.mem_singleton]
    exact not_or.2 ⟨hstx', by decide⟩
  have hqueue : delivers lost ++ .rxbyte 0x03 :: rest = delivers (lost ++ [0x03]) ++ rest := by
    rw [delivers_append, List.append_assoc]
    rfl
  have hrun := runsTo_add (runsTo_stx_data hp hstoredOk (Nat.le_of_eq hstored))
    (runsTo_succ (step_ovf rfl hstx hetx rfl (Nat.le_of_eq hstored.symm)) (runsTo_idle hqueue rfl rfl hnoise))
  have hsteps : stored.length + 1 + ((lost ++ [0x03]).length + 1) = (stored ++ b :: lost).length + 2 := by
    simp only [List.length_append, List.length_cons, List.length_nil]
    omega
  rwa [hsteps] at hrun

/-! A `PING`, from the wire to the wire. -/

theorem noDelims_hex2 (v : Byte) : noDelims (hex2 v) = true := by
  revert v; decide +kernel

theorem noDelims_fs_cons (t : Text) : noDelims (FS :: t) = noDelims t := rfl

/-- A body holds no frame delimiter, if its texts hold none. -/
theorem noDelims_bodyTemplate (c : Config) {type node data : Text} (seq : Option Byte) (htype : noDelims type = true)
    (hnode : noDelims node = true) (hdata : noDelims data = true) :
    noDelims (bodyTemplate c type node seq data) = true := by
  have hseq : noDelims (seqText seq) = true := noDelims_dec ((seqOperand seq).toNat : Int)
  have hchk : ∀ p, noDelims (checksumText p) = true := fun p => noDelims_hex2 (xor8 p)
  unfold bodyTemplate bodyOf joinText
  split <;> simp only [noDelims_append, noDelims_fs_cons, htype, hnode, hdata, hseq, hchk, Bool.and_self]

/-- The watermark of R25 is compared as a number. -/
theorem setWidth_eq_iff_toNat_eq (q : Byte) (w : U9) : q.setWidth 9 = w ↔ w.toNat = q.toNat := by
  have hq : (q.setWidth 9).toNat = q.toNat := BitVec.toNat_setWidth_of_le (by decide)
  rw [← hq, BitVec.toNat_inj, eq_comm]

/-- R210, R222: the handling of a `PING` with a number. -/
theorem frameHandle_ping {s : State} {f node : Text} {q : Byte} (hseq : s.cfg.seqAware = true)
    (h : decodeBody s.cfg f = .ok ⟨txtCmd, node, some q, txtPing⟩) :
    frameHandle f s = if s.lastHostSeq.toNat = q.toNat then s
      else (s.setLastHostSeq (BitVec.ofNat 9 q.toNat)).transmit (sentFrame s.cfg txtAck q txtPong) := by
  have hcmd : isCommand txtCmd = true := rfl
  simp only [frameHandle_of_ok h, handleMessage, hcmd, acceptCommand, hseq, if_true]
  rcases dedupAccept_cases q s with ⟨hdup, e⟩ | ⟨hnew, e⟩
  · rw [if_pos ((setWidth_eq_iff_toNat_eq q _).1 hdup)]
    simp only [seqOperand, Option.getD_some, e, Bool.false_eq_true, if_false, takeError]
  · rw [if_neg fun hdup => hnew ((setWidth_eq_iff_toNat_eq q _).2 hdup), BitVec.ofNat_toNat]
    simp only [seqOperand, Option.getD_some, e, if_true]
    exact reply_eq txtAck (some q) txtPong _

/-- `ENCODE` returns a text only where it frames the payload (R176). -/
theorem eq_framed_of_exec_encode {s t : State} {type node data f : Text} {q : Byte}
    (h : exec (.encode type node q data) s = .next t) (ht : t.ret = .text f) :
    f = framed (joinPayload s.cfg type node q data) := by
  have hret : encodeRet (encodeFrame s.cfg type node q data) = .text f :=
    (congrArg State.ret (Host.Outcome.next.inj h)).trans ht
  rw [encodeFrame_eq] at hret
  split_ifs at hret
  · cases hret
  · cases hret
  · exact (Ret.text.inj hret).symm

theorem delivers_framed (p : Text) (rest : List Event) :
    delivers (framed p) ++ rest = .rxbyte 0x02 :: (delivers (bodyOf p) ++ .rxbyte 0x03 :: rest) := by
  rw [framed, delivers_append, List.append_assoc]
  rfl

theorem length_framed_eq_length_bodyOf (p : Text) : (framed p).length = (bodyOf p).length + 2 := by
  rw [framed, List.length_append]
  rfl

/-- Settles O56: the body is handed over whole, decodes to the `PING` it was framed from, and is answered or dropped. -/
theorem pingOnTheWireIsAnswered : Obligations.PingOnTheWireIsAnswered := by
  intro s node q f rest hseq hnode hlen hencode hp
  obtain rfl := eq_framed_of_exec_encode hencode rfl
  have hnodeDelims : noDelims node = true := by
    rw [fieldOk, Bool.and_eq_true] at hnode
    exact hnode.1
  have hbodyDelims : noDelims (bodyOf (joinPayload s.cfg txtCmd node q txtPing)) = true :=
    noDelims_bodyTemplate s.cfg (some q) (by decide) hnodeDelims (by decide)
  have hdecode : decodeBody s.cfg (bodyOf (joinPayload s.cfg txtCmd node q txtPing)) =
      .ok ⟨txtCmd, node, some q, txtPing⟩ :=
    decodeBody_bodyTemplate (seq := some q) txtPing (by decide) (fs_notMem_of_fieldOk hnode) (by rw [seqOk, hseq]; rfl)
  rw [delivers_framed] at hp
  rw [length_framed_eq_length_bodyOf] at hlen ⊢
  obtain ⟨t, ht, hrun⟩ := frameIsDeliveredWhole s _ rest hp hbodyDelims (Nat.le_of_add_le_add_right hlen)
  obtain rfl := Host.Outcome.next.inj ht
  rw [frameHandle_ping (s := { s with receiving := false, rxBuf := [], pending := rest }) hseq hdecode] at hrun
  split_ifs with hdup
  · rw [if_pos hdup] at hrun
    exact hrun
  · rw [if_neg hdup] at hrun
    exact hrun

end Sys2Proof.Machine
end

section
/-! The checksum: the laws of the XOR fold, the two digits of the generator, and the number that a field writes. -/

namespace Sys2Proof.Machine

theorem exec_xor8 (t : Text) (s : State) : exec (.xor8 t) s = .next { s with ret := .byte (xor8 t) } := rfl

theorem exec_chkGen (p : Text) (s : State) : exec (.chkGen p) s = .next { s with ret := .text (hex2 (xor8 p)) } := rfl

theorem exec_chkVal (input field : Text) (s : State) :
    exec (.chkVal input field) s = .next { s with ret := .bool (checksumMatches input field) } := rfl

theorem checksumMatches_iff (input field : Text) : checksumMatches input field = true ↔ xor8 input = hexval field := by
  rw [checksumMatches, beq_iff_eq]

/-- Settles O20: the fold itself, read from its last byte. -/
theorem xor8TakesInEveryByte : Obligations.Xor8TakesInEveryByte := by
  refine ⟨xor8, xor8_nil, fun t b => ?_, exec_xor8⟩
  rw [xor8_append, xor8_cons, xor8_nil]
  exact congrArg (xor8 t ^^^ ·) BitVec.xor_zero

/-- R151: the order of the bytes does not matter (spec/90_conflicts.md C1), as XOR may take in two bytes in either order. -/
theorem xor8_eq_of_perm {s t : Text} (h : s.Perm t) : xor8 s = xor8 t :=
  h.foldl_eq' (fun x _ y _ c => by rw [BitVec.xor_assoc, BitVec.xor_comm x y, ← BitVec.xor_assoc]) 0

/-- R151: a byte may be brought to the front of the string. -/
theorem xor8_append_cons (u v : Text) (x : Byte) : xor8 (u ++ x :: v) = x ^^^ xor8 (u ++ v) := by
  rw [xor8_eq_of_perm List.perm_middle, xor8_cons]

/-- R151: changing one byte changes the checksum by the difference of the two. -/
theorem xor8_replace (u v : Text) (x y : Byte) : xor8 (u ++ y :: v) = xor8 (u ++ x :: v) ^^^ (x ^^^ y) := by
  have cancel : ∀ c : Byte, (x ^^^ c) ^^^ (x ^^^ y) = y ^^^ c := fun c =>
    calc (x ^^^ c) ^^^ (x ^^^ y) = (x ^^^ x) ^^^ (y ^^^ c) := by ac_rfl
      _ = y ^^^ c := by rw [BitVec.xor_self, BitVec.zero_xor]
  rw [xor8_append_cons, xor8_append_cons, cancel]

/-- Settles O21: the laws of the fold; one changed byte shows because the difference of two unequal bytes is not 0. -/
theorem xor8Laws : Obligations.Xor8Laws := by
  refine ⟨xor8_append, fun s t => xor8_eq_of_perm, fun s => ?_, xor8_replace, fun u v x y hne heq => hne ?_⟩
  · rw [xor8_append, BitVec.xor_self]
    rfl
  · rw [xor8_append_cons, xor8_append_cons] at heq
    exact ((BitVec.xor_left_inj _).1 heq).symm

/-- R98: the table holds the upper-case digits. -/
theorem hexChar_eq_upperHex : ∀ n : BitVec 4, hexChar n = upperHex n.toNat := by decide

/-- R98: the two nibbles are the quotient and the remainder by 16. -/
theorem hex2_eq_upperHex (v : Byte) : hex2 v = [upperHex (v.toNat / 16), upperHex (v.toNat % 16)] := by
  have high : (v.extractLsb' 4 4).toNat = v.toNat / 16 := by
    rw [BitVec.extractLsb'_toNat, Nat.shiftRight_eq_div_pow]
    omega
  have low : (v.extractLsb' 0 4).toNat = v.toNat % 16 := BitVec.extractLsb'_toNat ..
  rw [hex2, hexChar_eq_upperHex, hexChar_eq_upperHex, high, low]

/-- Settles O22: the text of the generator is `hex2` of the checksum. -/
theorem checksumTextIsTwoUpperCaseDigits : Obligations.ChecksumTextIsTwoUpperCaseDigits := by
  intro p s
  rw [exec_chkGen, hex2_eq_upperHex]

/-- R156: `hexval` reads back what `hex2` writes. -/
theorem checksumMatches_hex2 (p : Text) : checksumMatches p (hex2 (xor8 p)) = true :=
  (checksumMatches_iff _ _).2 (hexval_hex2 _).symm

/-- Settles O24: the text of the generator, which the validator accepts. -/
theorem generatedChecksumValidates : Obligations.GeneratedChecksumValidates := by
  intro p s
  refine ⟨hex2 (xor8 p), exec_chkGen p s, ?_⟩
  rw [exec_chkVal, checksumMatches_hex2]

/-- Taking a digit's first character from it and adding the value of that character, in 8 bits and in numbers. -/
theorem sub_add_eq_ofNat {b c : Byte} (h : c.toNat ≤ b.toNat) (k : Nat) :
    b - c + BitVec.ofNat 8 k = BitVec.ofNat 8 (b.toNat - c.toNat + k) := by
  rw [BitVec.ofNat_add, ← BitVec.ofNat_sub_ofNat_of_le _ _ c.isLt h, BitVec.ofNat_toNat, BitVec.ofNat_toNat,
    BitVec.setWidth_eq, BitVec.setWidth_eq]

/-- R99: the model's digit is the value of the digit, in 8 bits. -/
theorem hexdigit_eq (b : Byte) : hexdigit b = (hexDigitValue b).map (BitVec.ofNat 8) := by
  simp only [hexdigit, hexDigitValue, BitVec.le_def, apply_ite (Option.map (BitVec.ofNat 8))]
  refine ite_congr rfl (fun ⟨hlo, _⟩ => ?_) fun _ =>
    ite_congr rfl (fun ⟨hlo, _⟩ => ?_) fun _ =>
    ite_congr rfl (fun ⟨hlo, _⟩ => ?_) fun _ => rfl
  · exact congrArg some ((BitVec.add_zero _).symm.trans (sub_add_eq_ofNat (c := 0x30) hlo 0))
  · exact congrArg some (sub_add_eq_ofNat (c := 0x41) hlo 10)
  · exact congrArg some (sub_add_eq_ofNat (c := 0x61) hlo 10)

theorem hexNumber_cons_of_digit {b : Byte} {d : Nat} (h : hexDigitValue b = some d) (bs : Text) :
    hexNumber (b :: bs) = (hexNumber bs).map (d * 16 ^ bs.length + ·) := by
  rw [hexNumber, h]
  cases hexNumber bs <;> rfl

theorem hexNumber_cons_of_not_digit {b : Byte} (h : hexDigitValue b = none) (bs : Text) : hexNumber (b :: bs) = none := by
  rw [hexNumber, h]

/-- R99: from a number already read, the loop reads the field's number behind it, modulo 256; a byte that is no digit gives 0. -/
theorem hexvalLoop_eq (m : Nat) (field : Text) :
    hexvalLoop (BitVec.ofNat 8 m) field =
      (hexNumber field).elim 0 fun n => BitVec.ofNat 8 (m * 16 ^ field.length + n) := by
  induction field generalizing m with
  | nil => simp [hexvalLoop, hexNumber]
  | cons b bs ih =>
    rw [hexvalLoop, hexdigit_eq]
    cases hd : hexDigitValue b with
    | none => rw [hexNumber_cons_of_not_digit hd]; rfl
    | some d =>
      have shifted : 16 * BitVec.ofNat 8 m + BitVec.ofNat 8 d = BitVec.ofNat 8 (16 * m + d) := by
        rw [BitVec.ofNat_add, BitVec.ofNat_mul]
        rfl
      have weights : ∀ n, (16 * m + d) * 16 ^ bs.length + n = m * 16 ^ (b :: bs).length + (d * 16 ^ bs.length + n) :=
        fun n => by rw [List.length_cons]; ring
      simp only [Option.map_some, shifted, ih, weights, hexNumber_cons_of_digit hd]
      cases hexNumber bs <;> rfl

/-- R99, decision D5: what a field counts as. -/
theorem toNat_hexval (field : Text) : (hexval field).toNat = (hexNumber field).elim 0 (· % 256) := by
  have h : hexval field = (hexNumber field).elim 0 (BitVec.ofNat 8) :=
    (hexvalLoop_eq 0 field).trans (by simp only [Nat.zero_mul, Nat.zero_add])
  rw [h]
  cases hexNumber field <;> rfl

/-- Settles O23: two bytes are equal where their numbers are, and the field's byte is its number modulo 256. -/
theorem checksumFieldIsComparedAsANumber : Obligations.ChecksumFieldIsComparedAsANumber := by
  intro input field s
  refine ⟨_, exec_chkVal input field s, ?_⟩
  rw [checksumMatches_iff, ← BitVec.toNat_inj, toNat_hexval]
  cases hexNumber field <;> rfl

end Sys2Proof.Machine
end

section
/-! The codec: what `DECODE`, `ENCODE`, `SEND` and the two literal rows do, case by case, and that the first two undo each other. -/

namespace Sys2Proof.Machine

/-! The rows of the codec, in the terms of the wire. -/

theorem exec_decode (f : Text) (s : State) :
    exec (.decode f) s = .next { s with ret := decodeRet (decodeBody s.cfg f) } := rfl

theorem exec_decode_of_ok {f : Text} {s : State} {m : Message} (h : decodeBody s.cfg f = .ok m) :
    exec (.decode f) s = .next { s with ret := .message m } := by
  rw [exec_decode, h, decodeRet]

theorem exec_decode_of_error {f : Text} {s : State} {e : DecodeError} (h : decodeBody s.cfg f = .error e) :
    exec (.decode f) s = .next { s with ret := .decodeError e } := by
  rw [exec_decode, h, decodeRet]

/-- R176: `ENCODE`, its two size tests written out. -/
theorem exec_encode (type node : Text) (seq : Byte) (data : Text) (s : State) :
    exec (.encode type node seq data) s =
      if s.cfg.payloadCap < (joinPayload s.cfg type node seq data).length then
        .next { s with ret := .encodeError .payloadTooLarge }
      else if s.cfg.txCap < (joinPayload s.cfg type node seq data).length + 5 then
        .next { s with ret := .encodeError .frameTooLarge }
      else .next { s with ret := .text (wireFrame (joinPayload s.cfg type node seq data)) } := by
  show Host.Outcome.next (s.setRet (encodeRet (encodeFrame s.cfg type node seq data))) = _
  rw [encodeFrame_eq, framed_eq_wireFrame]
  split_ifs <;> rfl

theorem exec_send (type : Text) (seq : Byte) (data : Text) (s : State) :
    exec (.send type seq data) s = .next (s.transmit (sentFrame s.cfg type seq data)) :=
  congrArg Host.Outcome.next (sendFrame_eq type seq data s)

theorem exec_litTxTooLong (s : State) :
    exec .litTxTooLong s = .next { s with ret := .text (wireLiteral s.cfg txtTxTooLong) } :=
  congrArg (fun f => Host.Outcome.next (s.setRet (.text f))) (literalFrame_eq_wireLiteral s.cfg txtTxTooLong)

theorem exec_litFrmTooLong (s : State) :
    exec .litFrmTooLong s = .next { s with ret := .text (wireLiteral s.cfg txtFrmTooLong) } :=
  congrArg (fun f => Host.Outcome.next (s.setRet (.text f))) (literalFrame_eq_wireLiteral s.cfg txtFrmTooLong)

/-! The round trip. -/

/-- Settles O30: a text that `ENCODE` returns is framed, its checksum validates (R156), and the first delimiters of its payload are
those between the fields (R173), as the text of a number holds none. -/
theorem decodeReadsBackWhatEncodeFrames : Obligations.DecodeReadsBackWhatEncodeFrames := by
  intro s type node seq data f htype hnode hencode
  obtain rfl := eq_framed_of_exec_encode hencode rfl
  refine ⟨bodyOf (joinPayload s.cfg type node seq data), rfl, exec_decode_of_ok ?_⟩
  rw [decodeBody_bodyOf, joinPayload, splitInput_joinText s.cfg data htype hnode (fs_notMem_decSeq seq), seqOfText_decSeq]

/-! `DECODE`. -/

theorem decodeBody_of_mismatch (c : Config) {input field : Text} (hfield : FS ∉ field) (h : xor8 input ≠ hexval field) :
    decodeBody c (input ++ FS :: field) = .error .checksumMismatch := by
  rw [decodeBody_split c input field hfield, if_neg h]

theorem decodeBody_of_match (c : Config) {input field : Text} (hfield : FS ∉ field) (h : xor8 input = hexval field) :
    decodeBody c (input ++ FS :: field) = splitInput c input := by
  rw [decodeBody_split c input field hfield, if_pos h]

theorem splitInput_of_noFs (c : Config) {input : Text} (h : FS ∉ input) : splitInput c input = .error .format := by
  simp only [splitInput, findFirst_zero_eq_none input FS h]

theorem splitInput_of_oneFs (c : Config) {type rest : Text} (htype : FS ∉ type) (hrest : FS ∉ rest) :
    splitInput c (type ++ FS :: rest) = .error .format := by
  have hsecond : findFirst (type ++ FS :: rest) FS (type.length + 1) = none := by
    simpa using findFirst_eq_none (type ++ [FS]) rest FS hrest
  simp only [splitInput, findFirst_zero_append type rest FS htype, hsecond]

theorem splitInput_of_twoFs {c : Config} {type node rest : Text} (hseq : c.seqAware = true) (htype : FS ∉ type)
    (hnode : FS ∉ node) (hrest : FS ∉ rest) : splitInput c (type ++ FS :: (node ++ FS :: rest)) = .error .format := by
  rw [splitInput_fields c type node rest htype hnode, if_pos hseq, findFirst_zero_eq_none rest FS hrest]

theorem count_fs_append_cons {t : Text} (h : FS ∉ t) (rest : Text) : (t ++ FS :: rest).count FS = rest.count FS + 1 := by
  rw [List.count_append, List.count_eq_zero_of_not_mem h, List.count_cons_self, Nat.zero_add]

/-- R170, step 3: a checksum input that lacks a delimiter is no message, whichever of them is the first one missing. -/
theorem splitInput_of_fewFs {c : Config} {input : Text} (h : input.count FS < if c.seqAware = true then 3 else 2) :
    splitInput c input = .error .format := by
  by_cases hfirst : FS ∈ input
  case neg => exact splitInput_of_noFs c hfirst
  obtain ⟨type, rest, rfl, htype⟩ := exists_first_split input FS hfirst
  by_cases hsecond : FS ∈ rest
  case neg => exact splitInput_of_oneFs c htype hsecond
  obtain ⟨node, rest, rfl, hnode⟩ := exists_first_split rest FS hsecond
  rw [count_fs_append_cons htype, count_fs_append_cons hnode] at h
  split_ifs at h with hseq
  · have hthird : FS ∉ rest := List.count_eq_zero.1 (by omega)
    exact splitInput_of_twoFs hseq htype hnode hthird
  · omega

/-- R170, step 3 in the legacy form: all that follows the second delimiter is `DATA`. -/
theorem splitInput_of_legacy {c : Config} {type node : Text} (hseq : c.seqAware = false) (htype : FS ∉ type)
    (hnode : FS ∉ node) (data : Text) :
    splitInput c (type ++ [FS] ++ node ++ [FS] ++ data) = .ok ⟨type, node, none, data⟩ := by
  have h := splitInput_joinText c (seqTxt := []) data htype hnode List.not_mem_nil
  simpa [joinText, hseq] using h

/-- R170, step 3 in the sequence-aware form: all that follows the third delimiter is `DATA`. -/
theorem splitInput_of_seqAware {c : Config} {type node seqTxt : Text} (hseq : c.seqAware = true) (htype : FS ∉ type)
    (hnode : FS ∉ node) (hseqTxt : FS ∉ seqTxt) (data : Text) :
    splitInput c (type ++ [FS] ++ node ++ [FS] ++ (seqTxt ++ [FS] ++ data)) =
      .ok ⟨type, node, some (seqOfText seqTxt), data⟩ := by
  have h := splitInput_joinText c data htype hnode hseqTxt
  simpa [joinText, hseq] using h

/-- Settles O25: the last delimiter parts the checksum field from its input; the comparison is made before the input is split. -/
theorem decodeByCases : Obligations.DecodeByCases := by
  intro s f
  refine ⟨fun hfs => exec_decode_of_error (decodeBody_noFs s.cfg f hfs), ?_⟩
  rintro input field rfl hfield
  refine ⟨fun hne => exec_decode_of_error (decodeBody_of_mismatch s.cfg hfield hne), fun heq => ?_⟩
  have hsplit : decodeBody s.cfg (input ++ FS :: field) = splitInput s.cfg input := decodeBody_of_match s.cfg hfield heq
  refine ⟨fun hfew => exec_decode_of_error (hsplit.trans (splitInput_of_fewFs hfew)), ?_⟩
  rintro type node rest rfl htype hnode
  refine ⟨fun hseq => exec_decode_of_ok (hsplit.trans (splitInput_of_legacy hseq htype hnode rest)), ?_⟩
  rintro hseq seqTxt data rfl hseqTxt
  exact exec_decode_of_ok (hsplit.trans (splitInput_of_seqAware hseq htype hnode hseqTxt data))

/-- R220: a body of which the checksum is wrong is answered by `ERR.CHK`. -/
theorem exec_frameHandle_of_mismatch {f : Text} {s : State} (h : decodeBody s.cfg f = .error .checksumMismatch) :
    exec (.frameHandle f) s = exec .errChk s := by
  have hhandle : frameHandle f s = takeError .checksumMismatch none s := by simp only [frameHandle, h]
  exact congrArg Host.Outcome.next hhandle

/-- Settles O26: the checksum is compared before the input is split, so the number of its fields has no part in the answer. -/
theorem mismatchComesBeforeTheFieldCount : Obligations.MismatchComesBeforeTheFieldCount := by
  intro s input field hfield hne
  have hdecode := decodeBody_of_mismatch s.cfg hfield hne
  exact ⟨exec_decode_of_error hdecode, exec_frameHandle_of_mismatch hdecode⟩

/-! `ENCODE`, `SEND` and the literal frames. -/

theorem joinPayload_eq (c : Config) (type node : Text) (seq : Byte) (data : Text) :
    joinPayload c type node seq data =
      if c.seqAware = true then type ++ [FS] ++ node ++ [FS] ++ decSeq seq ++ [FS] ++ data
      else type ++ [FS] ++ node ++ [FS] ++ data := by
  cases h : c.seqAware <;> simp [joinPayload, joinText, h]

/-- Settles O27: the joined payload is the one of the statement, and the tests are those of `ENCODE`'s equation. -/
theorem encodeByCases : Obligations.EncodeByCases := by
  intro s type node seq data p hp
  obtain rfl : p = joinPayload s.cfg type node seq data := hp.trans (joinPayload_eq s.cfg type node seq data).symm
  exact exec_encode type node seq data s

/-- Settles O28: `SEND` and `ENCODE` make the same two size tests on the same payload. -/
theorem sendTransmitsOneFrameOrItsLiteral : Obligations.SendTransmitsOneFrameOrItsLiteral := by
  intro s type seq data
  rw [exec_encode, exec_send, exec_litTxTooLong, exec_litFrmTooLong, joinPayload_eq_wirePayload, sentFrame]
  split_ifs
  · exact ⟨_, _, rfl, rfl, .inr (.inl ⟨rfl, rfl⟩)⟩
  · exact ⟨_, _, rfl, rfl, .inr (.inr ⟨rfl, rfl⟩)⟩
  · exact ⟨_, _, rfl, rfl, .inl rfl⟩

/-- R181: all of a literal frame but the node and the reason has a fixed length. -/
theorem length_wireLiteral (c : Config) (reason : Text) :
    (wireLiteral c reason).length = c.nodeId.length + reason.length + if c.seqAware = true then 12 else 10 := by
  have htype : txtErr.length = 3 := rfl
  unfold wireLiteral wireFrame
  split_ifs <;> simp only [List.length_append, List.length_singleton, length_hex2, htype] <;> omega

theorem length_wireLiteral_txTooLong (c : Config) :
    (wireLiteral c txtTxTooLong).length = c.nodeId.length + if c.seqAware = true then 23 else 21 := by
  have hreason : txtTxTooLong.length = 11 := rfl
  rw [length_wireLiteral, hreason]
  split_ifs <;> rfl

theorem length_wireLiteral_frmTooLong (c : Config) :
    (wireLiteral c txtFrmTooLong).length = c.nodeId.length + if c.seqAware = true then 24 else 22 := by
  have hreason : txtFrmTooLong.length = 12 := rfl
  rw [length_wireLiteral, hreason]
  split_ifs <;> rfl

/-- R8 item 5: the transmitter has room for the longer of the two literal frames, hence for both. -/
theorem length_wireLiteral_le_txCap {c : Config} (h : c.wf = true) :
    (wireLiteral c txtTxTooLong).length ≤ c.txCap ∧ (wireLiteral c txtFrmTooLong).length ≤ c.txCap := by
  simp only [Config.wf, Config.literalsFit, Bool.and_eq_true, decide_eq_true_eq] at h
  obtain ⟨⟨-, hfit⟩, -⟩ := h
  rw [length_wireLiteral_txTooLong, length_wireLiteral_frmTooLong]
  split_ifs at hfit ⊢ <;> omega

/-- Settles O29: the constants that the two rows return, and their lengths. -/
theorem literalErrorFrames : Obligations.LiteralErrorFrames := fun s =>
  ⟨wireLiteral s.cfg txtTxTooLong, wireLiteral s.cfg txtFrmTooLong, exec_litTxTooLong s, rfl, exec_litFrmTooLong s, rfl,
    length_wireLiteral_txTooLong s.cfg, length_wireLiteral_frmTooLong s.cfg, length_wireLiteral_le_txCap⟩

end Sys2Proof.Machine
end

section
/-! The deduplication register (R210 to R216): what the duplicate test does to it, what the handling of a command does with it, and
that no other operation but a reset writes it. -/

namespace Sys2Proof.Machine

theorem exec_frameHandle (f : Text) (s : State) : exec (.frameHandle f) s = .next (frameHandle f s) := rfl

theorem exec_dedupAccept (q : Byte) (s : State) :
    exec (.dedupAccept q) s = .next ((dedupAccept q s).2.setRet (.bool (dedupAccept q s).1)) := rfl

/-- Settles O31: the two cases of the duplicate test. -/
theorem dedupComparesAndStores : Obligations.DedupComparesAndStores := by
  intro s q
  rw [exec_dedupAccept]
  rcases dedupAccept_cases q s with ⟨hdup, e⟩ | ⟨hnew, e⟩
  · rw [e, if_pos ((setWidth_eq_iff_toNat_eq q _).1 hdup)]
    rfl
  · rw [e, if_neg fun hdup => hnew ((setWidth_eq_iff_toNat_eq q _).2 hdup), BitVec.ofNat_toNat]
    rfl

/-! Commands in a sequence-aware node. -/

/-- Whatever command runs, it sends one frame and leaves the watermark alone. -/
theorem runCommand_length_tx_lastHostSeq (seq : Option Byte) (d : Text) (s : State) :
    (runCommand seq d s).tx.length = s.tx.length + 1 ∧ (runCommand seq d s).lastHostSeq = s.lastHostSeq := by
  have hsend : ∀ (t : State) (f : Text), t.tx = s.tx → t.lastHostSeq = s.lastHostSeq →
      (t.transmit f).tx.length = s.tx.length + 1 ∧ (t.transmit f).lastHostSeq = s.lastHostSeq := by
    intro t f htx hmark
    exact ⟨by rw [State.transmit_tx, htx, List.length_append, List.length_singleton], hmark⟩
  rcases runCommand_eq seq d s with ⟨-, e⟩ | ⟨-, e⟩ | ⟨v, -, e⟩ | ⟨v, -, e⟩ | ⟨-, -, -, -, e⟩ <;> rw [e] <;>
    exact hsend _ _ rfl rfl

/-- R211, R212: a command with the stored number changes nothing; with any other number it runs, the number being stored first. -/
theorem frameHandle_of_command {s : State} {f : Text} {m : Message} {q : Byte} (hdec : decodeBody s.cfg f = .ok m)
    (htype : m.type = txtCmd) (hq : m.seq = some q) :
    frameHandle f s = if s.lastHostSeq.toNat = q.toNat then s
      else runCommand (some q) m.data (s.setLastHostSeq (q.setWidth 9)) := by
  have hseq : s.cfg.seqAware = true := by
    obtain ⟨hsome, -⟩ := decodeBody_ok hdec
    rw [← hsome, hq]
    rfl
  have hcmd : isCommand m.type = true := beq_iff_eq.2 htype
  simp only [frameHandle_of_ok hdec, handleMessage, hcmd, acceptCommand, hseq, hq, seqOperand, Option.getD_some, if_true]
  rcases dedupAccept_cases q s with ⟨hdup, e⟩ | ⟨hnew, e⟩
  · rw [if_pos ((setWidth_eq_iff_toNat_eq q _).1 hdup), e]
    rfl
  · rw [if_neg fun hdup => hnew ((setWidth_eq_iff_toNat_eq q _).2 hdup), e]
    rfl

/-- R210: after a command, new or repeated, the watermark is its number. -/
theorem toNat_lastHostSeq_frameHandle_of_command {s : State} {f : Text} {m : Message} {q : Byte}
    (hdec : decodeBody s.cfg f = .ok m) (htype : m.type = txtCmd) (hq : m.seq = some q) :
    (frameHandle f s).lastHostSeq.toNat = q.toNat := by
  rw [frameHandle_of_command hdec htype hq]
  split_ifs with hdup
  · exact hdup
  · obtain ⟨-, hmark⟩ := runCommand_length_tx_lastHostSeq (some q) m.data (s.setLastHostSeq (q.setWidth 9))
    rw [hmark]
    exact BitVec.toNat_setWidth_of_le (by decide)

/-- A command with a number other than the watermark draws exactly one reply. -/
theorem length_tx_frameHandle_of_newCommand {s : State} {f : Text} {m : Message} {q : Byte}
    (hdec : decodeBody s.cfg f = .ok m) (htype : m.type = txtCmd) (hq : m.seq = some q)
    (hnew : s.lastHostSeq.toNat ≠ q.toNat) : (frameHandle f s).tx.length = s.tx.length + 1 := by
  obtain ⟨hlen, -⟩ := runCommand_length_tx_lastHostSeq (some q) m.data (s.setLastHostSeq (q.setWidth 9))
  rw [frameHandle_of_command hdec htype hq, if_neg hnew, hlen, State.setLastHostSeq_tx]

/-- Settles O32: the first frame leaves its number in the watermark, against which the other two are tested. -/
theorem repeatedCommandIsDroppedAndTheNextAnswered : Obligations.RepeatedCommandIsDroppedAndTheNextAnswered := by
  intro s f g next mf mg mnext q r _ hf hftype hfseq hg hgtype hgseq hnext hnexttype hnextseq hne
  obtain ⟨hcfg, -, sent, htx, hsent⟩ := emitsAtMost_frameHandle (emitsAtMost_refl 0 s) f
  have hmark := toNat_lastHostSeq_frameHandle_of_command hf hftype hfseq
  rw [← hcfg] at hg hnext
  have hdropped : frameHandle g (frameHandle f s) = frameHandle f s := by
    rw [frameHandle_of_command hg hgtype hgseq, if_pos hmark]
  have hnew : (frameHandle f s).lastHostSeq.toNat ≠ r.toNat := fun heq =>
    hne (BitVec.eq_of_toNat_eq (heq.symm.trans hmark))
  refine ⟨frameHandle f s, _, exec_frameHandle f s, ?_, ?_, exec_frameHandle next _,
    length_tx_frameHandle_of_newCommand hnext hnexttype hnextseq hnew,
    toNat_lastHostSeq_frameHandle_of_command hnext hnexttype hnextseq⟩
  · rw [htx, List.length_append]
    omega
  · rw [exec_frameHandle, hdropped]

/-! What leaves the watermark alone. -/

@[simp] theorem sendAuto_lastHostSeq (type data : Text) (s : State) :
    (sendAuto type data s).lastHostSeq = s.lastHostSeq := by
  rw [sendAuto_eq]
  rfl

@[simp] theorem restart_lastHostSeq (v : Bool) (s : State) : (restart v s).lastHostSeq = s.lastHostSeq := rfl

@[simp] theorem pollHb_lastHostSeq (now : U32) (s : State) : (pollHb now s).lastHostSeq = s.lastHostSeq := by
  rcases pollHb_cases now s with e | e <;> rw [e]
  rw [sendAuto_lastHostSeq, State.setLastFireHb_lastHostSeq]

@[simp] theorem pollArr_lastHostSeq (now : U32) (s : State) : (pollArr now s).lastHostSeq = s.lastHostSeq := by
  rcases pollArr_cases now s with e | e <;> rw [e]
  rw [sendAuto_lastHostSeq, State.setLastFireArr_lastHostSeq]

@[simp] theorem pollDl_lastHostSeq (now : U32) (s : State) : (pollDl now s).lastHostSeq = s.lastHostSeq := by
  rcases pollDl_cases now s with e | e <;> rw [e]
  rw [sendAuto_lastHostSeq, State.setLastFireDl_lastHostSeq]

/-! What writes it. -/

/-- R211, R214: the handling of a body writes the watermark only where it accepts a numbered command. -/
theorem frameHandle_lastHostSeq_of_ne {f : Text} {s : State} (h : (frameHandle f s).lastHostSeq ≠ s.lastHostSeq) :
    s.cfg.seqAware = true ∧ ∃ m q, decodeBody s.cfg f = .ok m ∧ m.type = txtCmd ∧ m.seq = some q ∧
      s.lastHostSeq.toNat ≠ q.toNat ∧ (frameHandle f s).lastHostSeq.toNat = q.toNat := by
  rcases frameHandle_cases f s with ⟨-, e⟩ | ⟨-, e⟩ | ⟨m, hdec, hm⟩
  · exact absurd (by rw [e]; rfl) h
  · exact absurd (by rw [e]; rfl) h
  · rcases hm with ⟨-, -, e⟩ | ⟨-, -, e⟩ | ⟨-, -, e⟩ | ⟨-, -, -, e⟩ | ⟨htype, hseq, q, hq, hnew, -⟩
    case inl => exact absurd (by rw [e]) h
    case inr.inl => exact absurd (by rw [e]; rfl) h
    case inr.inr.inl => exact absurd (by rw [e]) h
    case inr.inr.inr.inl =>
      obtain ⟨-, hmark⟩ := runCommand_length_tx_lastHostSeq none m.data s
      exact absurd (by rw [e, hmark]) h
    case inr.inr.inr.inr =>
      exact ⟨hseq, m, q, hdec, htype, hq, fun heq => hnew ((setWidth_eq_iff_toNat_eq q _).2 heq),
        toNat_lastHostSeq_frameHandle_of_command hdec htype hq⟩

/-- Of the five ways in which a byte is handled, only the end of a frame can write the watermark. -/
theorem step_rxbyte_lastHostSeq_of_ne {s t : State} {b : Byte} {rest : List Event} (hp : s.pending = .rxbyte b :: rest)
    (hstep : step s = .next t) (h : t.lastHostSeq ≠ s.lastHostSeq) :
    b = 0x03 ∧ s.receiving = true ∧
      t.lastHostSeq = (frameHandle s.rxBuf (restart false (s.setPending rest))).lastHostSeq := by
  obtain ⟨u, hu, hcases⟩ := step_rxbyte_cases hp
  obtain rfl := Host.Outcome.next.inj (hu.symm.trans hstep)
  rcases hcases with ⟨-, rfl⟩ | ⟨-, -, rfl⟩ | ⟨hetx, hr, rfl⟩ | ⟨-, -, -, -, rfl⟩ | ⟨-, -, -, -, rfl⟩
  case inl => exact absurd rfl h
  case inr.inl => exact absurd rfl h
  case inr.inr.inl => exact ⟨hetx, hr, rfl⟩
  case inr.inr.inr.inl => exact absurd rfl h
  case inr.inr.inr.inr => exact absurd (by simp) h

/-- Settles O33: a reset stores `NONE`, a poll leaves the watermark alone, and a byte that changes it ends an accepted command. -/
theorem watermarkChangesOnlyOnAcceptanceOrReset : Obligations.WatermarkChangesOnlyOnAcceptanceOrReset := by
  intro s t hstep hne
  cases hp : s.pending with
  | nil =>
    obtain rfl := Host.Outcome.next.inj ((step_of_pending_nil hp).symm.trans hstep)
    exact absurd rfl hne
  | cons e rest =>
    cases e with
    | rxbyte b =>
      obtain ⟨rfl, hr, hmark⟩ := step_rxbyte_lastHostSeq_of_ne hp hstep hne
      rw [hmark] at hne ⊢
      obtain ⟨hseq, m, q, hdec, htype, hq, hnew, hstored⟩ := frameHandle_lastHostSeq_of_ne hne
      exact .inr ⟨rest, m, q, rfl, hr, hseq, hdec, htype, hq, hnew, hstored⟩
    | poll now =>
      obtain rfl := Host.Outcome.next.inj ((step_poll hp).symm.trans hstep)
      exact absurd (by simp) hne
    | reset =>
      obtain rfl := Host.Outcome.next.inj ((step_reset hp).symm.trans hstep)
      exact .inl ⟨rest, rfl, rfl⟩

end Sys2Proof.Machine
end

section
/-! Telemetry (R250 to R260): the timer comparison, the number allocator, and a poll line by line. -/

namespace Sys2Proof.Machine

/-! The timer. -/

/-- R251: the machine's modular subtraction is the elapsed time. -/
theorem toNat_sub_eq_elapsed (now last : U32) : (now - last).toNat = elapsed now last := by
  rw [BitVec.toNat_sub, elapsed]
  congr 1
  omega

theorem timerDue_eq_decide (now last interval : U32) :
    timerDue now last interval = decide (interval.toNat ≤ elapsed now last) := by
  rw [← toNat_sub_eq_elapsed]
  rfl

theorem timerDue_iff {now last interval : U32} :
    timerDue now last interval = true ↔ interval.toNat ≤ elapsed now last := by
  rw [timerDue_eq_decide, decide_eq_true_iff]

theorem elapsed_self (now : U32) : elapsed now now = 0 := by
  rw [← toNat_sub_eq_elapsed, BitVec.sub_self]
  rfl

theorem exec_tmrDue (now last interval : U32) (s : State) :
    exec (.tmrDue now last interval) s = .next (s.setRet (.bool (timerDue now last interval))) := rfl

/-- Settles O47: the comparison of the modular difference is that of the elapsed time. -/
theorem timerComparesElapsedTime : Obligations.TimerComparesElapsedTime := by
  intro s now last interval
  rw [exec_tmrDue, timerDue_eq_decide]
  rfl

/-! The number allocator. -/

theorem exec_txseqAlloc (s : State) :
    exec .txseqAlloc s = .next ((s.setTxSeq (s.txSeq + 1)).setRet (.byte s.txSeq)) := rfl

/-- Settles O50: byte addition is addition modulo 256. -/
theorem allocReturnsThenIncrements : Obligations.AllocReturnsThenIncrements := by
  intro s
  have hnext : BitVec.ofNat 8 ((s.txSeq.toNat + 1) % 256) = s.txSeq + 1 := BitVec.eq_of_toNat_eq (by simp)
  rw [hnext]
  exact exec_txseqAlloc s

theorem allocTimes_succ (n : Nat) (s : State) :
    allocTimes (n + 1) s = (allocTimes n ((s.setTxSeq (s.txSeq + 1)).setRet (.byte s.txSeq))).map
      fun r => (s.txSeq :: r.1, r.2) := by
  simp only [allocTimes, exec_txseqAlloc, State.setRet_ret]
  cases allocTimes n ((s.setTxSeq (s.txSeq + 1)).setRet (.byte s.txSeq)) <;> rfl

/-- `n` consecutive numbers, from `a` on. -/
def numbersFrom (a : Byte) (n : Nat) : List Byte :=
  (List.range n).map fun k => a + BitVec.ofNat 8 k

theorem add_one_add_ofNat (a : Byte) (k : Nat) : a + 1 + BitVec.ofNat 8 k = a + BitVec.ofNat 8 (k + 1) := by
  rw [BitVec.add_assoc, Nat.add_comm k 1, BitVec.ofNat_add]
  rfl

theorem numbersFrom_succ (a : Byte) (n : Nat) : numbersFrom a (n + 1) = a :: numbersFrom (a + 1) n := by
  simp only [numbersFrom, List.range_succ_eq_map, List.map_cons, List.map_map, Function.comp_def, add_one_add_ofNat]
  exact congrArg (· :: _) (BitVec.add_zero a)

/-- R252: allocations in a row return consecutive numbers, and the counter has passed them. -/
theorem allocTimes_eq_numbersFrom (n : Nat) (s : State) :
    ∃ t, allocTimes n s = some (numbersFrom s.txSeq n, t) ∧ t.txSeq = s.txSeq + BitVec.ofNat 8 n := by
  induction n generalizing s with
  | zero => exact ⟨s, rfl, (BitVec.add_zero _).symm⟩
  | succ n ih =>
    obtain ⟨t, halloc, hseq⟩ := ih ((s.setTxSeq (s.txSeq + 1)).setRet (.byte s.txSeq))
    refine ⟨t, ?_, hseq.trans (add_one_add_ofNat s.txSeq n)⟩
    rw [allocTimes_succ, halloc, numbersFrom_succ]
    rfl

theorem nodup_numbersFrom (a : Byte) {n : Nat} (h : n ≤ 256) : (numbersFrom a n).Nodup := by
  refine List.Nodup.map_on (fun i hi j hj heq => ?_) List.nodup_range
  rw [List.mem_range] at hi hj
  have hbytes : BitVec.ofNat 8 i = BitVec.ofNat 8 j := (BitVec.add_right_inj a).1 heq
  have hmod : i % 256 = j % 256 := by simpa using congrArg BitVec.toNat hbytes
  omega

theorem mem_numbersFrom_256 (a v : Byte) : v ∈ numbersFrom a 256 := by
  refine List.mem_map.2 ⟨(v - a).toNat, List.mem_range.2 (v - a).isLt, ?_⟩
  rw [BitVec.ofNat_toNat, BitVec.setWidth_eq, BitVec.add_comm, BitVec.sub_add_cancel]

/-- Settles O51: the 256 consecutive numbers are all bytes, each once, and 256 more is the counter again. -/
theorem allocComesRoundAfter256 : Obligations.AllocComesRoundAfter256 := by
  intro s
  obtain ⟨t, halloc, hseq⟩ := allocTimes_eq_numbersFrom 256 s
  refine ⟨_, t, halloc, ?_, by simp [numbersFrom], nodup_numbersFrom s.txSeq le_rfl, mem_numbersFrom_256 s.txSeq⟩
  exact hseq.trans (BitVec.add_zero s.txSeq)

/-! The three streams. -/

/-- R253. -/
theorem exec_tlmHb (s : State) :
    exec .tlmHb s = .next ((s.setTxSeq (s.txSeq + 1)).transmit (sentFrame s.cfg txtHb s.txSeq txtOk)) :=
  congrArg Host.Outcome.next (sendAuto_eq txtHb txtOk s)

/-- R254. -/
theorem exec_tlmArr (s : State) :
    exec .tlmArr s = .next ((s.setTxSeq (s.txSeq + 1)).transmit
      (sentFrame s.cfg txtArr s.txSeq (arrivalData s.cfg s.routeId s.etaMinutes))) :=
  congrArg Host.Outcome.next (sendAuto_eq txtArr (arrivalData s.cfg s.routeId s.etaMinutes) s)

/-- R255. -/
theorem exec_tlmDl (s : State) :
    exec .tlmDl s = .next ((s.setTxSeq (s.txSeq + 1)).transmit (sentFrame s.cfg txtDl s.txSeq txtFiveMin)) :=
  congrArg Host.Outcome.next (sendAuto_eq txtDl txtFiveMin s)

/-- R250. -/
theorem exec_poll (now : U32) (s : State) :
    exec (.poll now) s = .next (pollDl now (pollArr now (pollHb now s))) := rfl

/-! Each line of a poll, by the elapsed time. -/

/-- The first line of R250. -/
theorem pollHb_eq (now : U32) (s : State) :
    pollHb now s = if 5000 ≤ elapsed now s.lastFireHb then tlmHb (s.setLastFireHb now) else s := by
  have hlimit : tHb.toNat = 5000 := rfl
  simp only [pollHb, timerDue_iff, hlimit]

theorem pollHb_of_due {now : U32} {s : State} (h : 5000 ≤ elapsed now s.lastFireHb) :
    pollHb now s = tlmHb (s.setLastFireHb now) :=
  (pollHb_eq now s).trans (if_pos h)

theorem pollHb_of_not_due {now : U32} {s : State} (h : elapsed now s.lastFireHb < 5000) : pollHb now s = s :=
  (pollHb_eq now s).trans (if_neg (Nat.not_le.2 h))

/-- The second line of R250. -/
theorem pollArr_eq (now : U32) (s : State) :
    pollArr now s = if 10000 ≤ elapsed now s.lastFireArr then tlmArr (s.setLastFireArr now) else s := by
  have hlimit : tArr.toNat = 10000 := rfl
  simp only [pollArr, timerDue_iff, hlimit]

theorem pollArr_of_due {now : U32} {s : State} (h : 10000 ≤ elapsed now s.lastFireArr) :
    pollArr now s = tlmArr (s.setLastFireArr now) :=
  (pollArr_eq now s).trans (if_pos h)

theorem pollArr_of_not_due {now : U32} {s : State} (h : elapsed now s.lastFireArr < 10000) : pollArr now s = s :=
  (pollArr_eq now s).trans (if_neg (Nat.not_le.2 h))

/-- The third line of R250. -/
theorem pollDl_eq (now : U32) (s : State) :
    pollDl now s = if 30000 ≤ elapsed now s.lastFireDl then tlmDl (s.setLastFireDl now) else s := by
  have hlimit : tDl.toNat = 30000 := rfl
  simp only [pollDl, timerDue_iff, hlimit]

theorem pollDl_of_due {now : U32} {s : State} (h : 30000 ≤ elapsed now s.lastFireDl) :
    pollDl now s = tlmDl (s.setLastFireDl now) :=
  (pollDl_eq now s).trans (if_pos h)

theorem pollDl_of_not_due {now : U32} {s : State} (h : elapsed now s.lastFireDl < 30000) : pollDl now s = s :=
  (pollDl_eq now s).trans (if_neg (Nat.not_le.2 h))

/-! What a line leaves of the other two streams' registers. -/

@[simp] theorem sendAuto_lastFireHb (type data : Text) (s : State) :
    (sendAuto type data s).lastFireHb = s.lastFireHb := by
  rw [sendAuto_eq, State.transmit_lastFireHb, State.setTxSeq_lastFireHb]

@[simp] theorem sendAuto_lastFireArr (type data : Text) (s : State) :
    (sendAuto type data s).lastFireArr = s.lastFireArr := by
  rw [sendAuto_eq, State.transmit_lastFireArr, State.setTxSeq_lastFireArr]

@[simp] theorem sendAuto_lastFireDl (type data : Text) (s : State) :
    (sendAuto type data s).lastFireDl = s.lastFireDl := by
  rw [sendAuto_eq, State.transmit_lastFireDl, State.setTxSeq_lastFireDl]

@[simp] theorem pollHb_lastFireArr (now : U32) (s : State) : (pollHb now s).lastFireArr = s.lastFireArr := by
  rcases pollHb_cases now s with e | e <;> simp [e]

@[simp] theorem pollHb_lastFireDl (now : U32) (s : State) : (pollHb now s).lastFireDl = s.lastFireDl := by
  rcases pollHb_cases now s with e | e <;> simp [e]

@[simp] theorem pollArr_lastFireHb (now : U32) (s : State) : (pollArr now s).lastFireHb = s.lastFireHb := by
  rcases pollArr_cases now s with e | e <;> simp [e]

@[simp] theorem pollArr_lastFireDl (now : U32) (s : State) : (pollArr now s).lastFireDl = s.lastFireDl := by
  rcases pollArr_cases now s with e | e <;> simp [e]

@[simp] theorem pollDl_lastFireHb (now : U32) (s : State) : (pollDl now s).lastFireHb = s.lastFireHb := by
  rcases pollDl_cases now s with e | e <;> simp [e]

@[simp] theorem pollDl_lastFireArr (now : U32) (s : State) : (pollDl now s).lastFireArr = s.lastFireArr := by
  rcases pollDl_cases now s with e | e <;> simp [e]

/-! The poll as a whole. -/

/-- What one line of a poll does to the counter and the log, where the Boolean says whether its stream fires. -/
def State.sendIf (s : State) (fires : Bool) (type data : Text) : State :=
  { s with
    txSeq := s.txSeq + BitVec.ofNat 8 fires.toNat
    tx := s.tx ++ if fires then [sentFrame s.cfg type s.txSeq data] else [] }

theorem State.sendIf_false (s : State) (type data : Text) : s.sendIf false type data = s := by
  simp [State.sendIf]

theorem State.sendIf_true (s : State) (type data : Text) : s.sendIf true type data = sendAuto type data s := by
  rw [sendAuto_eq]
  rfl

theorem pollHb_eq_sendIf {now : U32} {s : State} {hb : Bool} (h : hb = true ↔ 5000 ≤ elapsed now s.lastFireHb) :
    pollHb now s = (s.setLastFireHb (if hb then now else s.lastFireHb)).sendIf hb txtHb txtOk := by
  cases hb with
  | false => exact (pollHb_of_not_due (by simpa using h)).trans (State.sendIf_false s _ _).symm
  | true => exact (pollHb_of_due (h.1 rfl)).trans (State.sendIf_true _ _ _).symm

theorem pollArr_eq_sendIf {now : U32} {s : State} {arr : Bool} (h : arr = true ↔ 10000 ≤ elapsed now s.lastFireArr) :
    pollArr now s = (s.setLastFireArr (if arr then now else s.lastFireArr)).sendIf arr txtArr
      (arrivalData s.cfg s.routeId s.etaMinutes) := by
  cases arr with
  | false => exact (pollArr_of_not_due (by simpa using h)).trans (State.sendIf_false s _ _).symm
  | true => exact (pollArr_of_due (h.1 rfl)).trans (State.sendIf_true _ _ _).symm

theorem pollDl_eq_sendIf {now : U32} {s : State} {dl : Bool} (h : dl = true ↔ 30000 ≤ elapsed now s.lastFireDl) :
    pollDl now s = (s.setLastFireDl (if dl then now else s.lastFireDl)).sendIf dl txtDl txtFiveMin := by
  cases dl with
  | false => exact (pollDl_of_not_due (by simpa using h)).trans (State.sendIf_false s _ _).symm
  | true => exact (pollDl_of_due (h.1 rfl)).trans (State.sendIf_true _ _ _).symm

/-- Settles O48: the three lines in a row, each in the state that the line before it left;
their increments of the counter add up. -/
theorem pollFiresTheDueStreamsInOrder : Obligations.PollFiresTheDueStreamsInOrder := by
  intro s now hb arr dl hhb harr hdl
  have hline₂ : arr = true ↔ 10000 ≤ elapsed now (pollHb now s).lastFireArr := by rwa [pollHb_lastFireArr]
  have hline₃ : dl = true ↔ 30000 ≤ elapsed now (pollArr now (pollHb now s)).lastFireDl := by
    rwa [pollArr_lastFireDl, pollHb_lastFireDl]
  rw [exec_poll, pollDl_eq_sendIf hline₃, pollArr_eq_sendIf hline₂, pollHb_eq_sendIf hhb]
  simp only [BitVec.ofNat_add, ← BitVec.add_assoc]
  rfl

/-! Where each stream stands in a poll. -/

theorem exec_tlmHb_if_due (now : U32) (s : State) :
    (if 5000 ≤ elapsed now s.lastFireHb then exec .tlmHb { s with lastFireHb := now } else .next s) =
      .next (pollHb now s) := by
  rw [pollHb_eq, apply_ite Host.Outcome.next]
  rfl

/-- The reading compared may be that of an earlier state, from which the lines before left it alone. -/
theorem exec_tlmArr_if_due (now : U32) {last : U32} {s : State} (hlast : s.lastFireArr = last) :
    (if 10000 ≤ elapsed now last then exec .tlmArr { s with lastFireArr := now } else .next s) =
      .next (pollArr now s) := by
  subst hlast
  rw [pollArr_eq, apply_ite Host.Outcome.next]
  rfl

theorem exec_tlmDl_if_due (now : U32) {last : U32} {s : State} (hlast : s.lastFireDl = last) :
    (if 30000 ≤ elapsed now last then exec .tlmDl { s with lastFireDl := now } else .next s) =
      .next (pollDl now s) := by
  subst hlast
  rw [pollDl_eq, apply_ite Host.Outcome.next]
  rfl

/-- After its line the heartbeat is not due at the same reading: it has just fired, or it was not due. -/
theorem elapsed_pollHb_lt (now : U32) (s : State) : elapsed now (pollHb now s).lastFireHb < 5000 := by
  rcases Nat.lt_or_ge (elapsed now s.lastFireHb) 5000 with h | h
  · rwa [pollHb_of_not_due h]
  · rw [pollHb_of_due h, tlmHb, sendAuto_lastFireHb, State.setLastFireHb_lastFireHb, elapsed_self]
    decide

/-- After its line the arrival is not due at the same reading. -/
theorem elapsed_pollArr_lt (now : U32) (s : State) : elapsed now (pollArr now s).lastFireArr < 10000 := by
  rcases Nat.lt_or_ge (elapsed now s.lastFireArr) 10000 with h | h
  · rwa [pollArr_of_not_due h]
  · rw [pollArr_of_due h, tlmArr, sendAuto_lastFireArr, State.setLastFireArr_lastFireArr, elapsed_self]
    decide

/-- A poll whose first line is done already does the other two. -/
theorem exec_poll_pollHb (now : U32) (s : State) : exec (.poll now) (pollHb now s) = exec (.poll now) s := by
  rw [exec_poll, exec_poll, pollHb_of_not_due (elapsed_pollHb_lt now s)]

/-- A poll whose first two lines are done already does the third. -/
theorem exec_poll_pollArr_pollHb (now : U32) (s : State) :
    exec (.poll now) (pollArr now (pollHb now s)) = exec (.poll now) s := by
  have hhb : elapsed now (pollArr now (pollHb now s)).lastFireHb < 5000 := by
    rw [pollArr_lastFireHb]
    exact elapsed_pollHb_lt now s
  rw [exec_poll, exec_poll, pollHb_of_not_due hhb, pollArr_of_not_due (elapsed_pollArr_lt now (pollHb now s))]

/-- Settles O52: the row, and the first line of a poll where the stream is due and where it is not. -/
theorem heartbeatFrame : Obligations.HeartbeatFrame := by
  refine fun s => ⟨exec_tlmHb s, fun now => ⟨fun hdue => ?_, fun hnot => ?_⟩⟩
  · refine ⟨pollHb now s, ?_, (exec_poll_pollHb now s).symm⟩
    rw [pollHb_of_due hdue]
    rfl
  · refine ⟨_, _, exec_tlmArr_if_due now rfl, exec_tlmDl_if_due now (pollArr_lastFireDl now s), ?_, by simp⟩
    rw [exec_poll, pollHb_of_not_due hnot]

/-- Settles O53: the row, and the second line of a poll where the stream is due and where it is not. -/
theorem arrivalFrame : Obligations.ArrivalFrame := by
  refine fun s => ⟨exec_tlmArr s, fun now => ⟨fun hdue => ?_, fun hnot => ?_⟩⟩
  · refine ⟨_, pollArr now (pollHb now s), exec_tlmHb_if_due now s, ?_, (exec_poll_pollArr_pollHb now s).symm⟩
    rw [← pollHb_lastFireArr now s] at hdue
    rw [pollArr_of_due hdue]
    rfl
  · refine ⟨_, _, exec_tlmHb_if_due now s, exec_tlmDl_if_due now (pollHb_lastFireDl now s), ?_, by simp⟩
    rw [← pollHb_lastFireArr now s] at hnot
    rw [exec_poll, pollArr_of_not_due hnot]

/-- Settles O54: the row, and the third line of a poll where the stream is due and where it is not. -/
theorem delayFrame : Obligations.DelayFrame := by
  intro s
  have hdl (now : U32) : (pollArr now (pollHb now s)).lastFireDl = s.lastFireDl := by simp
  refine ⟨exec_tlmDl s, fun now => ⟨fun hdue => ?_, fun hnot => ?_⟩⟩
  · refine ⟨_, _, exec_tlmHb_if_due now s, exec_tlmArr_if_due now (pollHb_lastFireArr now s), ?_⟩
    rw [← hdl now] at hdue
    rw [exec_poll, pollDl_of_due hdue]
    rfl
  · refine ⟨_, _, exec_tlmHb_if_due now s, exec_tlmArr_if_due now (pollHb_lastFireArr now s), ?_, hdl now⟩
    rw [← hdl now] at hnot
    rw [exec_poll, pollDl_of_not_due hnot]

end Sys2Proof.Machine
end

section
/-! Errors (R270 to R296): what the three error replies that allocate a number do, and that no event stops the machine. -/

namespace Sys2Proof.Machine

/-! The three error replies. -/

/-- R280; the number is allocated from `tx_seq` (D18). -/
theorem exec_errFormat (s : State) :
    exec .errFormat s = .next ((s.setTxSeq (s.txSeq + 1)).transmit (sentFrame s.cfg txtErr s.txSeq txtFormat)) :=
  congrArg Host.Outcome.next (sendAuto_eq txtErr txtFormat s)

/-- R281; the number is allocated from `tx_seq` (D18). -/
theorem exec_errChk (s : State) :
    exec .errChk s = .next ((s.setTxSeq (s.txSeq + 1)).transmit (sentFrame s.cfg txtErr s.txSeq txtChk)) :=
  congrArg Host.Outcome.next (sendAuto_eq txtErr txtChk s)

/-- R282; the number is allocated from `tx_seq` (D18). -/
theorem exec_errRxOverflow (s : State) :
    exec .errRxOverflow s = .next ((s.setTxSeq (s.txSeq + 1)).transmit
      (sentFrame s.cfg txtErr s.txSeq txtRxOverflow)) :=
  congrArg Host.Outcome.next (sendAuto_eq txtErr txtRxOverflow s)

/-- Settles O45: each row allocates a number, then sends its frame. -/
theorem errorRepliesAllocateAndReport : Obligations.ErrorRepliesAllocateAndReport := fun s =>
  ⟨exec_errFormat s, exec_errChk s, exec_errRxOverflow s⟩

/-! No event stops the machine. -/

/-- Settles O2: each event is read as a row that completes. The one row that can stop is `RX.DATA` on a full buffer, and there R130
reads the byte as `RX.OVF` (the last two cases of `step_rxbyte_cases`). -/
theorem everyStepAnswersANextState : Obligations.EveryStepAnswersANextState := by
  intro s
  cases hp : s.pending with
  | nil => exact ⟨s, step_of_pending_nil hp⟩
  | cons e rest =>
    cases e with
    | rxbyte b =>
      obtain ⟨u, hstep, -⟩ := step_rxbyte_cases hp
      exact ⟨u.setRet .none, hstep⟩
    | poll now => exact ⟨_, step_poll hp⟩
    | reset => exact ⟨_, step_reset hp⟩

end Sys2Proof.Machine
end

section
/-! Reset (R320 to R323): the values that the reset event leaves, and the first poll after it. -/

namespace Sys2Proof.Machine

/-! The reset event. -/

/-- R320. -/
theorem exec_reset (s : State) : exec .reset s = .next (resetRegisters s) := rfl

/-- A reset of the machine right after reset changes nothing. -/
theorem resetRegisters_resetOf (c : Config) : resetRegisters (State.resetOf c) = State.resetOf c := rfl

/-- Settles O55: the fields of `resetRegisters s` and of `State.reset`, the latter a fixed point of the reset. -/
theorem resetLeavesTheInitialValues : Obligations.ResetLeavesTheInitialValues := by
  refine ⟨fun s => ⟨resetRegisters s, exec_reset s, ?registers⟩, ?rightAfterReset⟩
  case registers => exact ⟨rfl, rfl, rfl, rfl, rfl, rfl, rfl, rfl, rfl, rfl, rfl, rfl, rfl⟩
  case rightAfterReset =>
    have hfixed : exec .reset State.reset = .next State.reset :=
      (exec_reset State.reset).trans (congrArg Host.Outcome.next (resetRegisters_resetOf cfgRef))
    exact ⟨rfl, rfl, rfl, rfl, rfl, hfixed⟩

/-! The first poll after a reset. -/

/-- From a zero register, the elapsed time is the reading itself. -/
theorem elapsed_zero (now : U32) : elapsed now 0 = now.toNat := by
  rw [← toNat_sub_eq_elapsed]
  exact congrArg BitVec.toNat (BitVec.sub_zero now)

/-- R323: what O48 says of the poll that comes first after a reset, where every stream is due by the reading alone. -/
theorem exec_poll_resetRegisters (s : State) (now : U32) {hb arr dl : Bool} (hhb : hb = true ↔ 5000 ≤ now.toNat)
    (harr : arr = true ↔ 10000 ≤ now.toNat) (hdl : dl = true ↔ 30000 ≤ now.toNat) :
    exec (.poll now) (resetRegisters s) = .next { resetRegisters s with
      lastFireHb := if hb then now else 0
      lastFireArr := if arr then now else 0
      lastFireDl := if dl then now else 0
      txSeq := s.cfg.txSeqInit + BitVec.ofNat 8 (hb.toNat + arr.toNat + dl.toNat)
      tx := s.tx ++
        (if hb then [sentFrame s.cfg txtHb s.cfg.txSeqInit txtOk] else []) ++
        (if arr then [sentFrame s.cfg txtArr (s.cfg.txSeqInit + BitVec.ofNat 8 hb.toNat)
          (arrivalData s.cfg s.cfg.routeInit s.cfg.etaInit)] else []) ++
        (if dl then [sentFrame s.cfg txtDl (s.cfg.txSeqInit + BitVec.ofNat 8 (hb.toNat + arr.toNat)) txtFiveMin]
          else []) } := by
  rw [← elapsed_zero now] at hhb harr hdl
  exact pollFiresTheDueStreamsInOrder (resetRegisters s) now hb arr dl hhb harr hdl

/-- Settles O49: in each range of the reading the Booleans of `exec_poll_resetRegisters` are known. -/
theorem firstPollAfterReset : Obligations.FirstPollAfterReset := by
  intro s now
  refine ⟨resetRegisters s, exec_reset s, rfl, rfl, rfl, rfl, ?_⟩
  rintro _ _ _ rfl rfl rfl
  have due {n : Nat} (h : n ≤ now.toNat) : true = true ↔ n ≤ now.toNat := iff_of_true rfl h
  have notDue {n : Nat} (h : now.toNat < n) : false = true ↔ n ≤ now.toNat :=
    iff_of_false Bool.false_ne_true (Nat.not_le.2 h)
  split_ifs with h5 h10 h30
  · rw [exec_poll_resetRegisters s now (notDue h5) (notDue (by omega)) (notDue (by omega))]
    simp [resetRegisters]
  · rw [exec_poll_resetRegisters s now (due (by omega)) (notDue h10) (notDue (by omega))]
    simp [resetRegisters]
  · rw [exec_poll_resetRegisters s now (due (by omega)) (due (by omega)) (notDue h30)]
    simp [resetRegisters, arrivalData, decI32]
  · rw [exec_poll_resetRegisters s now (due (by omega)) (due (by omega)) (due (by omega))]
    simp [resetRegisters, arrivalData, decI32]

end Sys2Proof.Machine
end


section
/-! The dispatcher, row by row: the state that each of its six rows leaves, and the body that is read as each row (R222 to R228). -/

namespace Sys2Proof.Machine

/-! The rows. `exec_cmdStatus` and `exec_cmdSeteta` stand with the decimal numbers. -/

/-- R228: the number that a reply carries is the host's, where there is one. -/
theorem echoes_seqOperand (seq : Option Byte) : echoes seq (seqOperand seq) := by
  rintro q rfl
  rfl

/-- R222. -/
theorem exec_cmdPing (node : Text) (seq : Option Byte) (s : State) :
    exec (.cmdPing node seq) s = .next (s.transmit (sentFrame s.cfg txtAck (seqOperand seq) txtPong)) :=
  congrArg Host.Outcome.next (reply_eq txtAck seq txtPong s)

/-- R224: the reply is sent after the write. -/
theorem exec_cmdSetroute (node : Text) (seq : Option Byte) (value : Text) (s : State) :
    exec (.cmdSetroute node seq value) s = .next ((writeRoute value s).transmit
      (sentFrame s.cfg txtAck (seqOperand seq) txtRouteSet)) :=
  congrArg Host.Outcome.next (reply_eq txtAck seq txtRouteSet (writeRoute value s))

/-- R226. -/
theorem exec_cmdUnknown (node : Text) (seq : Option Byte) (data : Text) (s : State) :
    exec (.cmdUnknown node seq data) s = .next (s.transmit
      (sentFrame s.cfg txtErr (seqOperand seq) txtUnknownCmd)) :=
  congrArg Host.Outcome.next (reply_eq txtErr seq txtUnknownCmd s)

/-- R227: the two policies of decision D4. -/
theorem exec_typeOther (type node : Text) (seq : Option Byte) (data : Text) (s : State) :
    exec (.typeOther type node seq data) s = .next
      (if s.cfg.unknownTypeReply = true then s.transmit (sentFrame s.cfg txtErr (seqOperand seq) txtUnknownType)
      else s) := by
  rw [← reply_eq]
  rfl

/-! The body that is read as a row. -/

/-- The message that a `FRAME_IN` row is the reading of; the other rows have none. -/
def rowMessage : Instr → Option Message
  | .cmdPing node seq => some ⟨txtCmd, node, seq, txtPing⟩
  | .cmdStatus node seq => some ⟨txtCmd, node, seq, txtStatus⟩
  | .cmdSetroute node seq value => some ⟨txtCmd, node, seq, txtSetroute ++ value⟩
  | .cmdSeteta node seq value => some ⟨txtCmd, node, seq, txtSeteta ++ value⟩
  | .cmdUnknown node seq data => some ⟨txtCmd, node, seq, data⟩
  | .typeOther type node seq data => some ⟨type, node, seq, data⟩
  | _ => none

/-- A row keeps every field of the message that selected it. -/
theorem rowMessage_decodeMessage (m : Message) : rowMessage (decodeMessage m) = some m := by
  obtain ⟨type, node, seq, data⟩ := m
  by_cases htype : type = txtCmd
  case neg => rw [decodeMessage_of_type_ne htype, rowMessage]
  subst htype
  rcases selectCommand_cases data with ⟨rfl, -⟩ | ⟨rfl, -⟩ | ⟨v, rfl, -⟩ | ⟨v, rfl, -⟩ | ⟨-, -, -, -, e⟩
  · rw [decodeMessage_ping, rowMessage]
  · rw [decodeMessage_status, rowMessage]
  · rw [decodeMessage_setroute, rowMessage]
  · rw [decodeMessage_seteta, rowMessage]
  · rw [decodeMessage_unknown e, rowMessage]

/-- Different messages select different rows. -/
theorem decodeMessage_injective : Function.Injective decodeMessage := by
  intro m m' h
  have hmessage := congrArg rowMessage h
  rw [rowMessage_decodeMessage, rowMessage_decodeMessage] at hmessage
  exact Option.some.inj hmessage

/-- Only a body that decodes is read as a `FRAME_IN` row. -/
theorem exists_message_of_decode_frameIn {x : Ctx} {f : Text} {i : Instr} (h : decode x (.frameIn f) = .ok i) :
    ∃ m, decodeBody x.cfg f = .ok m ∧ decodeMessage m = i := by
  have hin : decodeFrameIn x.cfg f = .ok i := h
  cases hdec : decodeBody x.cfg f with
  | error e => simp [decodeFrameIn, hdec] at hin
  | ok m => exact ⟨m, rfl, Except.ok.inj ((decode_frameIn hdec).symm.trans h)⟩

/-- A body is read as the row of a message exactly where it decodes to that message. -/
theorem decode_frameIn_eq_ok_iff (x : Ctx) (f : Text) (m : Message) :
    decode x (.frameIn f) = .ok (decodeMessage m) ↔ decodeBody x.cfg f = .ok m := by
  refine ⟨fun h => ?_, decode_frameIn⟩
  obtain ⟨m', hdec, hrow⟩ := exists_message_of_decode_frameIn h
  rwa [decodeMessage_injective hrow] at hdec

/-- `CMD.UNKNOWN` is the last row of the command table (R106). -/
theorem decodeMessage_eq_cmdUnknown_iff (m : Message) (node : Text) (seq : Option Byte) (data : Text) :
    decodeMessage m = .cmdUnknown node seq data ↔
      m = ⟨txtCmd, node, seq, data⟩ ∧ data ≠ txtPing ∧ data ≠ txtStatus ∧
        ¬ txtSetroute <+: data ∧ ¬ txtSeteta <+: data := by
  constructor
  · intro h
    have hmessage := rowMessage_decodeMessage m
    rw [h, rowMessage] at hmessage
    obtain rfl := Option.some.inj hmessage
    rcases selectCommand_cases data with ⟨rfl, -⟩ | ⟨rfl, -⟩ | ⟨v, rfl, -⟩ | ⟨v, rfl, -⟩ | ⟨hp, hs, hr, he, -⟩
    · cases (decodeMessage_ping node seq).symm.trans h
    · cases (decodeMessage_status node seq).symm.trans h
    · cases (decodeMessage_setroute node seq v).symm.trans h
    · cases (decodeMessage_seteta node seq v).symm.trans h
    · exact ⟨rfl, hp, hs, hr, he⟩
  · rintro ⟨rfl, hping, hstatus, hroute, heta⟩
    exact decodeMessage_unknown (selectCommand_eq_unknown hping hstatus hroute heta) node seq

/-! The obligations about one row. -/

/-- Settles O38: the row's next state, and the one message that selects it. -/
theorem pingAnswersPong : Obligations.PingAnswersPong :=
  ⟨fun s node seq => ⟨seqOperand seq, echoes_seqOperand seq, exec_cmdPing node seq s⟩,
    fun x f node seq => decode_frameIn_eq_ok_iff x f ⟨txtCmd, node, seq, txtPing⟩⟩

/-- Settles O39: the row's next state, and the one message that selects it. -/
theorem statusReportsDeviceState : Obligations.StatusReportsDeviceState :=
  ⟨fun s node seq => ⟨seqOperand seq, echoes_seqOperand seq, exec_cmdStatus node seq s⟩,
    fun x f node seq => decode_frameIn_eq_ok_iff x f ⟨txtCmd, node, seq, txtStatus⟩⟩

/-- Settles O40: the write, read back byte by byte, which the reply leaves alone. -/
theorem setRouteStoresTheValue : Obligations.SetRouteStoresTheValue := by
  intro s node seq value
  have hwrite := memByte_writeRoute value s
  have hnext := exec_cmdSetroute node seq value s
  refine ⟨seqOperand seq, _, echoes_seqOperand seq, hnext, ?_, fun a => (hwrite a).1, fun a => (hwrite a).2⟩
  rw [writeRoute_eq]
  rfl

/-- R9: the 32 bits of a wrapped number. -/
theorem toNat_wrapI32 (v : Int) : ((wrapI32 v).toNat : Int) = v % 2 ^ 32 := by
  rw [wrapI32, BitVec.toNat_ofInt]
  exact Int.toNat_of_nonneg (Int.emod_nonneg v (by decide))

/-- Settles O41: the row's next state, and the bits of the number it stores. -/
theorem setEtaStoresTheWrappedNumber : Obligations.SetEtaStoresTheWrappedNumber := fun s node seq value =>
  ⟨seqOperand seq, wrapI32 (parseInt value), echoes_seqOperand seq, exec_cmdSeteta node seq value s,
    toNat_wrapI32 (parseInt value)⟩

/-- Settles O43: the row's next state, and the messages that select it. -/
theorem unknownCommandIsReported : Obligations.UnknownCommandIsReported := by
  refine ⟨fun s node data seq => ⟨seqOperand seq, echoes_seqOperand seq, exec_cmdUnknown node seq data s⟩,
    fun x f node data seq => ⟨fun h => ?_, ?_⟩⟩
  · obtain ⟨m, hdec, hrow⟩ := exists_message_of_decode_frameIn h
    obtain ⟨rfl, hunmatched⟩ := (decodeMessage_eq_cmdUnknown_iff m node seq data).1 hrow
    exact ⟨hdec, hunmatched⟩
  · rintro ⟨hdec, hunmatched⟩
    rw [decode_frameIn hdec, (decodeMessage_eq_cmdUnknown_iff _ node seq data).2 ⟨rfl, hunmatched⟩]

/-- Settles O44: the two policies. -/
theorem otherTypeIsIgnoredOrReported : Obligations.OtherTypeIsIgnoredOrReported := by
  intro s type node data seq
  rw [exec_typeOther]
  refine ⟨fun hsilent => ?_, fun hreply => ⟨seqOperand seq, echoes_seqOperand seq, ?_⟩⟩
  · rw [hsilent, if_neg Bool.false_ne_true]
  · rw [if_pos hreply]
    rfl

end Sys2Proof.Machine
end

section
/-! The handling of a frame as the running of the row that its body is read as: the order of the tests before it (R220), what of the
message plays no part (R232), and when no reply is drawn (R229). -/

namespace Sys2Proof.Machine

/-! The row of a message, executed. -/

/-- R221, R227: what the row of a message does depends on its type, its number and its data. -/
theorem exec_decodeMessage (m : Message) (s : State) :
    exec (decodeMessage m) s =
      .next (if isCommand m.type = true then runCommand m.seq m.data s else typeOther m.seq s) := by
  rw [decodeMessage, runCommand]
  split_ifs
  · cases selectCommand m.data <;> rfl
  · rfl

theorem exec_decodeMessage_of_command {m : Message} (htype : m.type = txtCmd) (s : State) :
    exec (decodeMessage m) s = .next (runCommand m.seq m.data s) := by
  have hcmd : isCommand m.type = true := beq_iff_eq.2 htype
  rw [exec_decodeMessage, if_pos hcmd]

/-- Settles O36: the inbound node is no operand of the handling, nor of what a row does. -/
theorem inboundNodeIsIgnored : Obligations.InboundNodeIsIgnored := by
  intro s f g node₁ node₂ type data seq hf hg
  refine ⟨?_, fun i j hi hj => ?_⟩
  · rw [exec_frameHandle, exec_frameHandle, frameHandle_of_ok hf, frameHandle_of_ok hg]
    rfl
  · obtain rfl := Except.ok.inj ((decode_frameIn hf).symm.trans hi)
    obtain rfl := Except.ok.inj ((decode_frameIn hg).symm.trans hj)
    rw [exec_decodeMessage, exec_decodeMessage]

/-! The order of the tests. -/

theorem decodeRet_injective : Function.Injective decodeRet := by
  rintro (e | m) (e' | m') h <;> cases h <;> rfl

/-- What `DECODE` returns tells how the body decodes. -/
theorem decodeBody_of_exec_decode {f : Text} {s : State} (d : Except DecodeError Message)
    (h : exec (.decode f) s = .next { s with ret := decodeRet d }) : decodeBody s.cfg f = d :=
  decodeRet_injective (congrArg State.ret (Host.Outcome.next.inj h))

/-- R220: a body without its delimiters is answered by `ERR.FORMAT`. -/
theorem exec_frameHandle_of_format {f : Text} {s : State} (h : decodeBody s.cfg f = .error .format) :
    exec (.frameHandle f) s = exec .errFormat s := by
  have hhandle : frameHandle f s = takeError .format none s := by simp only [frameHandle, h]
  exact congrArg Host.Outcome.next hhandle

/-- R220: a message of another type runs its row as it is. -/
theorem exec_frameHandle_of_type_ne {f : Text} {s : State} {m : Message} (hdec : decodeBody s.cfg f = .ok m)
    (htype : m.type ≠ txtCmd) : exec (.frameHandle f) s = exec (.typeOther m.type m.node m.seq m.data) s := by
  have hother : ¬ isCommand m.type = true := fun h => htype (beq_iff_eq.1 h)
  rw [exec_frameHandle, frameHandle_of_ok hdec, handleMessage, if_neg hother]
  rfl

/-- R212, R220: a duplicate changes nothing. -/
theorem exec_frameHandle_of_duplicate {f : Text} {s : State} {m : Message} {q : Byte} (hdec : decodeBody s.cfg f = .ok m)
    (htype : m.type = txtCmd) (hq : m.seq = some q) (hdup : s.lastHostSeq.toNat = q.toNat) :
    exec (.frameHandle f) s = .next s := by
  rw [exec_frameHandle, frameHandle_of_command hdec htype hq, if_pos hdup]

/-- R214: without a number there is no duplicate test. -/
theorem frameHandle_of_command_noSeq {f : Text} {s : State} {m : Message} (hdec : decodeBody s.cfg f = .ok m)
    (htype : m.type = txtCmd) (hq : m.seq = none) : frameHandle f s = runCommand none m.data s := by
  obtain ⟨hsome, -⟩ := decodeBody_ok hdec
  have hlegacy : s.cfg.seqAware = false := by
    rw [← hsome, hq]
    rfl
  have hcmd : isCommand m.type = true := beq_iff_eq.2 htype
  simp only [frameHandle_of_ok hdec, handleMessage, hcmd, acceptCommand, hlegacy, hq, Bool.false_eq_true, if_false, if_true]

/-- From `s` to `t` a command with number `seq` is accepted: a number is stored, and must be another than the stored one
(R210, R214). -/
def acceptsTo (seq : Option Byte) (s t : State) : Prop :=
  seq = none ∧ t = s ∨
    ∃ q, seq = some q ∧ s.lastHostSeq.toNat ≠ q.toNat ∧ t = { s with lastHostSeq := BitVec.ofNat 9 q.toNat }

/-- R220: an accepted command runs the row that its body is read as, from the state that holds its number. -/
theorem exec_frameHandle_of_accepted {f : Text} {s t : State} {m : Message} {i : Instr}
    (hdec : decodeBody s.cfg f = .ok m) (htype : m.type = txtCmd) (ht : acceptsTo m.seq s t)
    (hrow : decode s.ctx (.frameIn f) = .ok i) : exec (.frameHandle f) s = exec i t := by
  obtain rfl := Except.ok.inj ((decode_frameIn (x := s.ctx) hdec).symm.trans hrow)
  rw [exec_frameHandle, exec_decodeMessage_of_command htype]
  rcases ht with ⟨hq, rfl⟩ | ⟨q, hq, hnew, rfl⟩
  · rw [frameHandle_of_command_noSeq hdec htype hq, hq]
  · rw [frameHandle_of_command hdec htype hq, if_neg hnew, hq, BitVec.ofNat_toNat]
    rfl

/-- Settles O34: the errors, the other types, the duplicates, and the five rows of the command table, which O8 tells apart. -/
theorem frameHandlingOrder : Obligations.FrameHandlingOrder := by
  intro s f
  obtain ⟨-, -, sent, htx, hlen⟩ := emitsAtMost_frameHandle (emitsAtMost_refl 0 s) f
  refine ⟨⟨_, sent, exec_frameHandle f s, htx, hlen⟩,
    fun h => exec_frameHandle_of_format (decodeBody_of_exec_decode (.error .format) h),
    fun h => exec_frameHandle_of_mismatch (decodeBody_of_exec_decode (.error .checksumMismatch) h), fun m h => ?_⟩
  have hdec := decodeBody_of_exec_decode (.ok m) h
  obtain ⟨hseq, -⟩ := decodeBody_ok hdec
  refine ⟨hseq, exec_frameHandle_of_type_ne hdec, fun htype =>
    ⟨fun q hq hdup => exec_frameHandle_of_duplicate hdec htype hq hdup, fun t ht => ?_⟩⟩
  obtain ⟨-, hrows⟩ := bodySelectsItsRow s.ctx f m hdec
  obtain ⟨hping, hstatus, hroute, heta, hunknown⟩ := hrows htype
  have hrun : ∀ i, decode s.ctx (.frameIn f) = .ok i → exec (.frameHandle f) s = exec i t :=
    fun _ => exec_frameHandle_of_accepted hdec htype ht
  exact ⟨fun hd => hrun _ (hping hd), fun hd => hrun _ (hstatus hd), fun v hd => hrun _ (hroute v hd),
    fun v hd => hrun _ (heta v hd), fun hp hs hr he => hrun _ (hunknown hp hs hr he)⟩

/-! The frames that draw no reply. -/

/-- The messages that a node leaves without a reply: of a type that it does not answer, or a duplicate (R212, R227). -/
def State.ignores (s : State) (m : Message) : Prop :=
  m.type ≠ txtCmd ∧ s.cfg.unknownTypeReply = false ∨
    m.type = txtCmd ∧ ∃ q, m.seq = some q ∧ s.lastHostSeq.toNat = q.toNat

theorem frameHandle_of_ignored {f : Text} {s : State} {m : Message} (hdec : decodeBody s.cfg f = .ok m)
    (h : s.ignores m) : frameHandle f s = s := by
  rcases h with ⟨htype, hsilent⟩ | ⟨htype, q, hq, hdup⟩
  · have hnext := exec_frameHandle_of_type_ne hdec htype
    rw [exec_typeOther, hsilent, if_neg Bool.false_ne_true] at hnext
    exact Host.Outcome.next.inj hnext
  · rw [frameHandle_of_command hdec htype hq, if_pos hdup]

theorem State.length_tx_transmit (s : State) (f : Text) : (s.transmit f).tx.length = s.tx.length + 1 :=
  List.length_append

/-- Every other body draws exactly one reply. -/
theorem length_tx_frameHandle_of_not_ignored {f : Text} {s : State}
    (h : ∀ m, decodeBody s.cfg f = .ok m → ¬ s.ignores m) : (frameHandle f s).tx.length = s.tx.length + 1 := by
  rcases frameHandle_cases f s with ⟨-, e⟩ | ⟨-, e⟩ | ⟨m, hdec, hm⟩
  · rw [e, State.length_tx_transmit, State.setTxSeq_tx]
  · rw [e, State.length_tx_transmit, State.setTxSeq_tx]
  have hanswered := h m hdec
  rcases hm with ⟨htype, hsilent, -⟩ | ⟨-, -, e⟩ | ⟨htype, ⟨q, hq, hdup⟩, -⟩ | ⟨-, -, -, e⟩ | ⟨-, -, q, -, -, e⟩
  case inl => exact absurd (.inl ⟨htype, hsilent⟩) hanswered
  case inr.inl => rw [e, State.length_tx_transmit]
  case inr.inr.inl => exact absurd (.inr ⟨htype, q, hq, (setWidth_eq_iff_toNat_eq q _).1 hdup⟩) hanswered
  case inr.inr.inr.inl =>
    rw [e]
    exact (runCommand_length_tx_lastHostSeq none m.data s).1
  case inr.inr.inr.inr =>
    rw [e]
    exact (runCommand_length_tx_lastHostSeq (some q) m.data (s.setLastHostSeq (q.setWidth 9))).1

/-- Settles O35: an ignored message leaves the log, any other body makes it longer. -/
theorem frameDrawsOneReplyOrNone : Obligations.FrameDrawsOneReplyOrNone := by
  intro s f
  obtain ⟨-, -, sent, htx, hlen⟩ := emitsAtMost_frameHandle (emitsAtMost_refl 0 s) f
  refine ⟨_, sent, exec_frameHandle f s, htx, hlen, fun hnone => ?_, ?_⟩
  · by_contra hanswered
    have hlonger := length_tx_frameHandle_of_not_ignored (f := f) (s := s) fun m hdec h => hanswered ⟨m, hdec, h⟩
    rw [htx, hnone, List.append_nil] at hlonger
    omega
  · rintro ⟨m, hdec, hignored⟩
    rw [frameHandle_of_ignored hdec hignored] at htx
    exact List.self_eq_append_right.1 htx

end Sys2Proof.Machine
end

section
/-! Device State (R230): what leaves `route_id` and `eta_minutes` alone, and the two commands that write them. -/

namespace Sys2Proof.Machine

/-- Device State: the route and the estimate. -/
def State.deviceState (s : State) : Text × U32 :=
  (s.routeId, s.etaMinutes)

theorem State.deviceState_ne_iff (s t : State) :
    t.deviceState ≠ s.deviceState ↔ t.routeId ≠ s.routeId ∨ t.etaMinutes ≠ s.etaMinutes := by
  rw [Ne, State.deviceState, State.deviceState, Prod.mk.injEq, not_and_or]

@[simp] theorem sendAuto_deviceState (type data : Text) (s : State) :
    (sendAuto type data s).deviceState = s.deviceState := by
  rw [sendAuto_eq]
  rfl

/-- What holds of a poll's line: it does nothing, or writes its stamp and sends one frame. -/
theorem deviceState_of_eq_or_sendAuto {s t u : State} {type data : Text} (ht : t.deviceState = s.deviceState)
    (hu : u = s ∨ u = sendAuto type data t) : u.deviceState = s.deviceState := by
  rcases hu with rfl | rfl
  · rfl
  · rw [sendAuto_deviceState, ht]

/-- A poll reads Device State and does not write it. -/
theorem poll_deviceState (now : U32) (s : State) :
    (pollDl now (pollArr now (pollHb now s))).deviceState = s.deviceState := by
  have hb : ∀ t, (pollHb now t).deviceState = t.deviceState := fun t =>
    deviceState_of_eq_or_sendAuto (t := t.setLastFireHb now) rfl (pollHb_cases now t)
  have arr : ∀ t, (pollArr now t).deviceState = t.deviceState := fun t =>
    deviceState_of_eq_or_sendAuto (t := t.setLastFireArr now) rfl (pollArr_cases now t)
  have dl : ∀ t, (pollDl now t).deviceState = t.deviceState := fun t =>
    deviceState_of_eq_or_sendAuto (t := t.setLastFireDl now) rfl (pollDl_cases now t)
  rw [dl, arr, hb]

/-- From `s` to `t` the command text `d` wrote one of the two registers, with the value of R224 or R225. -/
def writesDevice (d : Text) (s t : State) : Prop :=
  (t.etaMinutes = s.etaMinutes ∧ ∃ v, d = txtSetroute ++ v ∧ t.routeId = v.take s.cfg.routeCap) ∨
    (t.routeId = s.routeId ∧ ∃ v, d = txtSeteta ++ v ∧ t.etaMinutes = BitVec.ofInt 32 (parseInt v))

theorem runCommand_deviceState (seq : Option Byte) (d : Text) (s : State) :
    (runCommand seq d s).deviceState = s.deviceState ∨ writesDevice d s (runCommand seq d s) := by
  rcases runCommand_eq seq d s with ⟨-, e⟩ | ⟨-, e⟩ | ⟨v, hv, e⟩ | ⟨v, hv, e⟩ | ⟨-, -, -, -, e⟩ <;> rw [e]
  case inl => exact .inl rfl
  case inr.inl => exact .inl rfl
  case inr.inr.inl => exact .inr (.inl ⟨rfl, v, hv, rfl⟩)
  case inr.inr.inr.inl => exact .inr (.inr ⟨rfl, v, hv, rfl⟩)
  case inr.inr.inr.inr => exact .inl rfl

/-- The handling of a body writes Device State only where it accepts one of the two commands. -/
theorem frameHandle_deviceState_of_ne {f : Text} {s : State} (h : (frameHandle f s).deviceState ≠ s.deviceState) :
    ∃ m, decodeBody s.cfg f = .ok m ∧ m.type = txtCmd ∧ (∀ q, m.seq = some q → s.lastHostSeq.toNat ≠ q.toNat) ∧
      writesDevice m.data s (frameHandle f s) := by
  rcases frameHandle_cases f s with ⟨-, e⟩ | ⟨-, e⟩ | ⟨m, hdec, hm⟩
  · exact absurd (by rw [e]; rfl) h
  · exact absurd (by rw [e]; rfl) h
  rcases hm with ⟨-, -, e⟩ | ⟨-, -, e⟩ | ⟨-, -, e⟩ | ⟨htype, -, hq, e⟩ | ⟨htype, -, q, hq, hnew, e⟩ <;> rw [e] at h ⊢
  case inl => exact absurd rfl h
  case inr.inl => exact absurd rfl h
  case inr.inr.inl => exact absurd rfl h
  case inr.inr.inr.inl =>
    refine ⟨m, hdec, htype, fun q hsome => ?_, (runCommand_deviceState none m.data s).resolve_left h⟩
    cases hq.symm.trans hsome
  case inr.inr.inr.inr =>
    refine ⟨m, hdec, htype, fun r hsome hdup => ?_, (runCommand_deviceState (some q) m.data _).resolve_left h⟩
    obtain rfl := Option.some.inj (hq.symm.trans hsome)
    exact hnew ((setWidth_eq_iff_toNat_eq q _).2 hdup)

/-- Of the five ways in which a byte is handled, only the end of a frame can write Device State. -/
theorem step_rxbyte_deviceState_of_ne {s t : State} {b : Byte} {rest : List Event}
    (hp : s.pending = .rxbyte b :: rest) (hstep : step s = .next t) (h : t.deviceState ≠ s.deviceState) :
    b = 0x03 ∧ s.receiving = true ∧ t = (frameHandle s.rxBuf (restart false (s.setPending rest))).setRet .none := by
  obtain ⟨u, hu, hcases⟩ := step_rxbyte_cases hp
  obtain rfl := Host.Outcome.next.inj (hu.symm.trans hstep)
  rcases hcases with ⟨-, rfl⟩ | ⟨-, -, rfl⟩ | ⟨hetx, hr, rfl⟩ | ⟨-, -, -, -, rfl⟩ | ⟨-, -, -, -, rfl⟩
  case inl => exact absurd rfl h
  case inr.inl => exact absurd rfl h
  case inr.inr.inl => exact ⟨hetx, hr, rfl⟩
  case inr.inr.inr.inl => exact absurd rfl h
  case inr.inr.inr.inr => exact absurd (sendAuto_deviceState txtErr txtRxOverflow (restart false (s.setPending rest))) h

/-- Settles O37: a poll leaves Device State alone, and a byte that changes it ends an accepted command. -/
theorem deviceStateChangesOnlyByItsCommands : Obligations.DeviceStateChangesOnlyByItsCommands := by
  intro s t hstep hchanged
  have hne := (State.deviceState_ne_iff s t).2 hchanged
  cases hp : s.pending with
  | nil =>
    obtain rfl := Host.Outcome.next.inj ((step_of_pending_nil hp).symm.trans hstep)
    exact absurd rfl hne
  | cons e rest =>
    cases e with
    | rxbyte b =>
      obtain ⟨rfl, hr, rfl⟩ := step_rxbyte_deviceState_of_ne hp hstep hne
      obtain ⟨m, hdec, htype, hnew, hwrites⟩ := frameHandle_deviceState_of_ne hne
      exact .inr ⟨rest, m, rfl, hr, hdec, htype, hnew, hwrites⟩
    | poll now =>
      obtain rfl := Host.Outcome.next.inj ((step_poll hp).symm.trans hstep)
      exact absurd (poll_deviceState now (s.setPending rest)) hne
    | reset => exact .inl ⟨rest, rfl⟩

end Sys2Proof.Machine
end
